-- ==== Sys2Proof/Word.lean ====
section
/-! DEFINITION. The widths of the engine (R6, R9, R20, R21, R28, R29, R30) and its index ranges.
Words are bit vectors, so `+`, `^^^`, `&&&` and `~~~` are the operators of R10: sums wrap modulo 2^32 and the complement
stays within 32 bits. Rotations, remainder and byte fields are in Machine/Ops.lean and Machine/Operands.lean. -/

namespace Sys2Proof

/-- A word: 32 bits, unsigned (R9). -/
abbrev Word := BitVec 32

/-- A byte: 8 bits, unsigned (R9). -/
abbrev Byte := BitVec 8

/-- A command word: 16 bits (R9, R60). -/
abbrev CmdWord := BitVec 16

/-- Eight words A..H, indices 0..7: the accumulator `CTX` (R21), and the working words and message words of COMPRESS. -/
abbrev Words := Vector Word 8

/-- 32 bytes in source order: the block buffer `BLK` (R28). -/
abbrev Block := Vector Byte 32

/-- 32 bytes: the digest buffer `DIG` (R29). -/
abbrev Digest := Vector Byte 32

/-- 64 character codes: the hex string buffer `HEX` (R30). -/
abbrev HexString := Vector Byte 64

/-- The indices 0..7 in the order A..H in which every loop of the spec runs (R12: the order is part of the meaning). -/
def idx8 : List (Fin 8) := [0, 1, 2, 3, 4, 5, 6, 7]

end Sys2Proof
end

