-- ==== Sys2Proof/Syntax.lean ====
section
/-! DEFINITION. The six commands (R65, spec/opcode_table.json) and the three fault causes of a command word (R161). -/

namespace Sys2Proof

/-- A command with its operands as they stand in the word (R64: zero-extended, not scaled). One constructor per row of the
opcode table; the pseudo-instructions of R70 are lists of these (Machine/Message.lean). -/
inductive Instr where
  /-- INIT, format N (R80). -/
  | init
  /-- PAD, format L (R87): `LEN`, bits 5:0. Legal for 0..32 (`Instr.WellFormed`); a longer length faults (R91). -/
  | pad (len : BitVec 6)
  /-- COMPRESS, format N (R100). -/
  | compress
  /-- EXTRACT, format N (R140). -/
  | extract
  /-- HEXENC, format N (R143). -/
  | hexenc
  /-- LDB, format B (R85): `IDX`, bits 12:8, and `DATA`, bits 7:0. Every value is legal (R63). -/
  | ldb (idx : BitVec 5) (data : Byte)
  deriving DecidableEq, Repr

/-- Why a command word faults (R161). Codes 4 to 7 are unused. -/
inductive Cause where
  /-- Cause 1: `cmd[15:13]` is 0 or 7. -/
  | reservedOpcode
  /-- Cause 2: a field that must be 0 is not. -/
  | reservedField
  /-- Cause 3: PAD with a length in 33..63. -/
  | padLength
  deriving DecidableEq, Repr

end Sys2Proof
end

