-- ==== Sys2Proof/WellFormed.lean ====
section
/-! DEFINITION. Which commands are legal as syntax (R62, R63, R67): the one check is PAD's length. -/

namespace Sys2Proof

/-- A command whose operands are all legal. Only PAD has an operand with illegal values: 33..63 fit the field and are
illegal (R62). -/
abbrev Instr.WellFormed (i : Instr) : Prop :=
  match i with
  | .pad len => len.toNat ≤ 32
  | .init => True
  | .compress => True
  | .extract => True
  | .hexenc => True
  | .ldb _ _ => True

end Sys2Proof
end

