-- ==== Sys2Proof/Decode.lean ====
section
/-! DEFINITION. Decoding of a command word, total on all 65536 words (R66), and the encoder from the same map (R65). -/

namespace Sys2Proof

/-- `OP`, bits 15:13 (R60). -/
def opField (w : CmdWord) : BitVec 3 := w.extractLsb' 13 3

/-- `ZERO13`, bits 12:0 of format N (R61). -/
def zero13Field (w : CmdWord) : BitVec 13 := w.extractLsb' 0 13

/-- `ZERO7`, bits 12:6 of format L (R62). -/
def zero7Field (w : CmdWord) : BitVec 7 := w.extractLsb' 6 7

/-- `LEN`, bits 5:0 of format L (R62, R64). -/
def lenField (w : CmdWord) : BitVec 6 := w.extractLsb' 0 6

/-- `IDX`, bits 12:8 of format B (R63, R64). -/
def idxField (w : CmdWord) : BitVec 5 := w.extractLsb' 8 5

/-- `DATA`, bits 7:0 of format B (R63, R64). -/
def dataField (w : CmdWord) : Byte := w.extractLsb' 0 8

/-- A format N command: its reserved bits must be 0 (R61, R66). -/
def decodeFormatN (i : Instr) (w : CmdWord) : Except Cause Instr :=
  if zero13Field w = 0 then .ok i else .error .reservedField

/-- PAD: the reserved field is checked before the length (R66, R162). -/
def decodeFormatL (w : CmdWord) : Except Cause Instr :=
  if zero7Field w = 0 then
    if (lenField w).toNat ≤ 32 then .ok (.pad (lenField w)) else .error .padLength
  else .error .reservedField

/-- Decoding (R66): the command, or the cause of the fault. The opcode decides the format, so the order of R66's checks
(cause 1, then 2, then 3) is the order of the tests on any one word. -/
def decode (w : CmdWord) : Except Cause Instr :=
  match (opField w).toNat with
  | 1 => decodeFormatN .init w
  | 2 => decodeFormatL w
  | 3 => decodeFormatN .compress w
  | 4 => decodeFormatN .extract w
  | 5 => decodeFormatN .hexenc w
  | 6 => .ok (.ldb (idxField w) (dataField w))
  | _ => .error .reservedOpcode

/-- The command word of a command (R65). It is total: a PAD with an illegal length has a word too, one that `decode`
refuses (log 12). -/
def encode : Instr → CmdWord
  | .init => 0x2000#16
  | .pad len => BitVec.ofNat 16 (0x4000 + len.toNat)
  | .compress => 0x6000#16
  | .extract => 0x8000#16
  | .hexenc => 0xA000#16
  | .ldb idx data => BitVec.ofNat 16 (0xC000 + 256 * idx.toNat + data.toNat)

/-- The command read from a word whose bits are `w`, of which the table gives `nbits` (all rows give 16; log 16). -/
def decodeTableWord (nbits w : Nat) : Option Instr :=
  (decode (BitVec.ofNat 16 (w % 2 ^ nbits))).toOption

end Sys2Proof
end

