-- ==== Sys2Proof/Config.lean ====
section
/-! DEFINITION. What an instance fixes (R7: the record `CFG` of open parameters), what the document asserts of it (R8), and
the free values: the registers that hardware reset leaves unspecified (R34, U1). -/

namespace Sys2Proof

/-- The four temper functions (R103). -/
inductive TemperFn where
  | W | X | Y | Z
  deriving DecidableEq, Repr, Inhabited

/-- Operand selectors of Round 1 (R7, R13): `MI` or `WK(n)`. -/
inductive Sel1 where
  | mi
  | wk (n : Fin 8)
  deriving DecidableEq, Repr, Inhabited

/-- Operand selectors of the inner temper function of Round 2 (R7, R13): `KV`, `MI`, `MJ` or `WK(n)`. -/
inductive SelInner where
  | kv
  | mi
  | mj
  | wk (n : Fin 8)
  deriving DecidableEq, Repr, Inhabited

/-- Operand selectors of the outer temper function of Round 2 (R7, R13): `IN` as well. -/
inductive SelOuter where
  | inner
  | kv
  | mi
  | mj
  | wk (n : Fin 8)
  deriving DecidableEq, Repr, Inhabited

/-- `P_R1[t]`: the function and the operand in each of the argument positions a..h (R7). -/
structure Rule1 where
  fn  : TemperFn
  ops : Vector Sel1 8
  deriving DecidableEq, Repr, Inhabited

/-- `P_R2[t]`: outer and inner function with their operands (R7). -/
structure Rule2 where
  ofn  : TemperFn
  oops : Vector SelOuter 8
  ifn  : TemperFn
  iops : Vector SelInner 8
  deriving DecidableEq, Repr, Inhabited

/-- `P_R2MOD[n]`: the coefficients `(c, d)`. A pair that breaks R8 item 6 is refused by the type (D15, U6; log 4): every
modulus `i*c + d` of the eight iterations is non-zero and below 2^32. The values after `:=` only show that the type is
inhabited; no proof can see them through `Config.cfg`. -/
structure ModCoef where
  c     : Nat := 1
  d     : Nat := 1
  sound : ∀ i : Fin 8, i.val * c + d ≠ 0 ∧ i.val * c + d < 2 ^ 32 := by decide
  deriving DecidableEq, Repr, Inhabited

/-- The modulus `i*c + d` of iteration `i` (R118), an ordinary integer. -/
def ModCoef.modulus (p : ModCoef) (i : Fin 8) : Nat := i.val * p.c + p.d

/-- `CFG`: the constants wired into an instance (R7). No command and no reset changes them (R27). -/
structure Cfg where
  /-- `P_IV`: the eight initial constants (R80). -/
  iv    : Words
  /-- `P_R1`: the wiring of Round 1 (R110). -/
  r1    : Vector Rule1 8
  /-- `P_R2MOD`: the modulus coefficients of the scalar K (R118). -/
  r2mod : Vector ModCoef 8
  /-- `P_R2`: the wiring of Round 2 (R120). -/
  r2    : Vector Rule2 8
  /-- `P_LSRC`: whose pre-rotation value the rotate-left branch of each word rotates (R122). -/
  lsrc  : Vector (Fin 8) 8
  deriving DecidableEq, Repr, Inhabited

/-- How many of the eight operands are `a`. -/
def opCount {α : Type} [DecidableEq α] (ops : Vector α 8) (a : α) : Nat :=
  idx8.countP (fun k => ops[k] = a)

/-- R8 item 1: `MI` once, and each other working word once. -/
abbrev Cfg.Round1Documented (c : Cfg) : Prop :=
  ∀ t : Fin 8, opCount c.r1[t].ops .mi = 1 ∧ ∀ n : Fin 8, n ≠ t → opCount c.r1[t].ops (.wk n) = 1

/-- R8 item 2: `KV` once and one of `MI`, `MJ` once; the other six operands are then working words. -/
abbrev Cfg.InnerDocumented (c : Cfg) : Prop :=
  ∀ t : Fin 8, opCount c.r2[t].iops .kv = 1 ∧ opCount c.r2[t].iops .mi + opCount c.r2[t].iops .mj = 1

/-- R8 item 3: `IN` once, `KV` once, and once the one of `MI`, `MJ` the inner function does not hold. -/
abbrev Cfg.OuterDocumented (c : Cfg) : Prop :=
  ∀ t : Fin 8, opCount c.r2[t].oops .inner = 1 ∧ opCount c.r2[t].oops .kv = 1 ∧
    opCount c.r2[t].oops .mi = opCount c.r2[t].iops .mj ∧ opCount c.r2[t].oops .mj = opCount c.r2[t].iops .mi

/-- R8 item 4: `c` in 1..8 and the pairs distinct. (That `d` is "small odd/prime-like" is no exact condition; log 17.) -/
abbrev Cfg.CoefDocumented (c : Cfg) : Prop :=
  (∀ n : Fin 8, 1 ≤ c.r2mod[n].c ∧ c.r2mod[n].c ≤ 8) ∧
    ∀ m n : Fin 8, m ≠ n → (c.r2mod[m].c, c.r2mod[m].d) ≠ (c.r2mod[n].c, c.r2mod[n].d)

/-- R8 item 5: at most one word's rotate-left branch is irregular. -/
abbrev Cfg.LsrcDocumented (c : Cfg) : Prop := idx8.countP (fun t => c.lsrc[t] ≠ t) ≤ 1

/-- What the document asserts of the open parameters, R8 items 1 to 5 (item 6 is in the type `ModCoef`). A hypothesis a
claim may name; nothing in the model assumes it. -/
abbrev Cfg.Documented (c : Cfg) : Prop :=
  c.Round1Documented ∧ c.InnerDocumented ∧ c.OuterDocumented ∧ c.CoefDocumented ∧ c.LsrcDocumented

/-- The regular case of R122: every word's rotate-left branch rotates its own value. -/
abbrev Cfg.Regular (c : Cfg) : Prop := ∀ t : Fin 8, c.lsrc[t] = t

/-- The constants of the instance that `State.reset` describes. No document gives their values (N1 to N5): nothing
constrains them (log 3). -/
opaque Config.cfg : Cfg

/-- Free value: what `CTX` holds after the k-th drawing of the unspecified registers (R34, U1; log 5). -/
opaque Config.resetCtx : Nat → Words

/-- Free value: what `BLK` holds after the k-th drawing (R34, U1; log 5). -/
opaque Config.resetBlk : Nat → Block

/-- Free value: what `DIG` holds after the k-th drawing (R34, U1; log 5). -/
opaque Config.resetDig : Nat → Digest

/-- Free value: what `HEX` holds after the k-th drawing (R34, U1; log 5). -/
opaque Config.resetHex : Nat → HexString

end Sys2Proof
end

