-- ==== Sys2Proof/Machine/State.lean ====
section
/-! DEFINITION. The state of one engine instance (R20), the host's moves still to come (R191), the reasons a step can stop,
and the state after hardware reset (R34). -/

namespace Sys2Proof.Machine

/-- A read port with its index input (R33). The index inputs are as wide as their spaces, so no index is out of range. -/
inductive ReadPort where
  | blk (idx : BitVec 5)
  | dig (idx : BitVec 5)
  | hex (idx : BitVec 6)
  | ctx (idx : BitVec 3)
  | status
  | errcmd
  deriving DecidableEq, Repr

/-- A move of the host (R191: "exactly these moves"), and the passing of time between two of them. -/
inductive HostMove where
  /-- Assert `rst` (R180). -/
  | assertRst
  /-- Release `rst` (R180). -/
  | releaseRst
  /-- Present a command word until it is accepted (R33, R187). -/
  | present (w : CmdWord)
  /-- Read one element (R33, R50). -/
  | read (p : ReadPort)
  /-- Let time pass: a command in flight completes (R187, R190; log 8). -/
  | wait
  deriving DecidableEq, Repr

/-- The state. The first six fields are the architectural state of R20, exactly; `flight` and `rst` are implied by R25, R173
and R181; `cfg`, `moves` and `draws` are the model's own (log 2, 3, 6). -/
structure State where
  /-- The accumulator, words A..H (R21). -/
  ctx    : Words
  /-- The block buffer (R28). -/
  blk    : Block
  /-- The digest buffer (R29). -/
  dig    : Digest
  /-- The hex string buffer (R30). -/
  hex    : HexString
  /-- `STATUS`: BUSY bit 0, ERR bit 1, CAUSE bits 4:2, bits 7:5 zero (R25). Fields in Machine/Flags.lean. -/
  status : BitVec 8
  /-- `ERRCMD`: the command word that faulted (R26). -/
  errcmd : CmdWord
  /-- The accepted command word that has not completed yet (R49, R181). -/
  flight : Option CmdWord
  /-- The reset input is asserted (R33, R173). -/
  rst    : Bool
  /-- The constants wired into this instance (R7, R27). No step changes them. -/
  cfg    : Cfg
  /-- The host's moves still to come, first one first (R36, R191). -/
  moves  : List HostMove
  /-- How many times the unspecified registers have been drawn: the argument of the next free value (R34). -/
  draws  : Nat
  deriving DecidableEq, Repr

/-- Why the engine stops. -/
inductive Fault where
  /-- It is the engine's turn in the faulted state: "no enabled step of the engine" (R164, U9). Raised by the step in
  Machine/Engine.lean when `STATUS.ERR` is 1, no command is in flight and the host presents a command or has no move left.
  Safe: the hardware waits for ever (log 9). Entering the faulted state is no stop but a next state (R163). -/
  | faulted
  deriving DecidableEq, Repr

/-- Why a command is refused. -/
inductive Refusal where
  /-- A command without a meaning in this model. Nothing raises it: every command has its meaning. Safe. -/
  | notModelled (mnemonic : String)
  deriving DecidableEq, Repr

/-- What a command or a step answers. -/
abbrev Result := Host.Outcome State Fault Refusal

/-- The state right after hardware reset: idle, `STATUS` = 0x00, `ERRCMD` = 0x0000, the data registers unspecified (R34,
R180). The host has made no move yet. -/
def State.reset : State where
  ctx    := Config.resetCtx 0
  blk    := Config.resetBlk 0
  dig    := Config.resetDig 0
  hex    := Config.resetHex 0
  status := 0x00#8
  errcmd := 0x0000#16
  flight := none
  rst    := false
  cfg    := Config.cfg
  moves  := []
  draws  := 1

end Sys2Proof.Machine
end

