-- ==== Sys2Proof/Machine/Flags.lean ====
section
/-! DEFINITION. The fields of `STATUS` (R25) and the codes of the fault causes (R161). The engine has no condition codes: no
command sets a flag from a result (R25). -/

namespace Sys2Proof.Machine

/-- `STATUS.BUSY`, bit 0 (R25). -/
def statusBusy (st : BitVec 8) : Bool := st.getLsbD 0

/-- `STATUS.ERR`, bit 1 (R25). -/
def statusErr (st : BitVec 8) : Bool := st.getLsbD 1

/-- `STATUS.CAUSE`, bits 4:2 (R25). -/
def statusCause (st : BitVec 8) : BitVec 3 := st.extractLsb' 2 3

/-- The reserved bits 7:5 (R25). -/
def statusReserved (st : BitVec 8) : BitVec 3 := st.extractLsb' 5 3

/-- `STATUS.BUSY <- 1`, on acceptance (R25). -/
def statusSetBusy (st : BitVec 8) : BitVec 8 := st ||| 0x01#8

/-- `STATUS.BUSY <- 0`, on completion (R25). -/
def statusClearBusy (st : BitVec 8) : BitVec 8 := st &&& 0xFE#8

/-- The cause code (R161). -/
def causeCode : Cause → BitVec 3
  | .reservedOpcode => 1
  | .reservedField => 2
  | .padLength => 3

/-- `STATUS` as a fault leaves it (R163): ERR is 1, CAUSE the code, BUSY 0; the reserved bits are not touched. -/
def statusFault (st : BitVec 8) (c : Cause) : BitVec 8 := statusReserved st ++ causeCode c ++ 0b10#2

end Sys2Proof.Machine
end

