-- ==== Sys2Proof/Machine/Ops.lean ====
section
/-! DEFINITION. The named operations on the state: the writes of R12, acceptance and completion of a command (R25, R49), fault
entry (R163) and, beside it, hardware reset, which is the only way out of a fault (R165, R180). -/

namespace Sys2Proof.Machine

/-- `CTX[0..7] <- v`. -/
def State.setCtx (s : State) (v : Words) : State := { s with ctx := v }

/-- `BLK[0..31] <- v`. -/
def State.setBlk (s : State) (v : Block) : State := { s with blk := v }

/-- `DIG[0..31] <- v`. -/
def State.setDig (s : State) (v : Digest) : State := { s with dig := v }

/-- `HEX[0..63] <- v`. -/
def State.setHex (s : State) (v : HexString) : State := { s with hex := v }

/-- `STATUS <- v`. -/
def State.setStatus (s : State) (v : BitVec 8) : State := { s with status := v }

/-- `ERRCMD <- v`. -/
def State.setErrcmd (s : State) (v : CmdWord) : State := { s with errcmd := v }

/-- The command in flight. -/
def State.setFlight (s : State) (v : Option CmdWord) : State := { s with flight := v }

/-- The level of `rst`. -/
def State.setRst (s : State) (v : Bool) : State := { s with rst := v }

/-- The host's moves still to come. -/
def State.setMoves (s : State) (v : List HostMove) : State := { s with moves := v }

/-- `BLK[idx] <- data` (R12, R85). -/
def State.writeBlk (s : State) (idx : BitVec 5) (data : Byte) : State :=
  s.setBlk (s.blk.set idx.toNat data idx.isLt)

/-- Acceptance of a command word (R25, R49): it is in flight and BUSY is 1; nothing else changes until it completes. -/
def State.accept (s : State) (w : CmdWord) : State :=
  (s.setStatus (statusSetBusy s.status)).setFlight (some w)

/-- The end of a command (R25): BUSY is 0 and nothing is in flight. -/
def State.retire (s : State) : State :=
  (s.setStatus (statusClearBusy s.status)).setFlight none

/-- Fault entry (R163): `raise Fault(c)` for the command word `w`. The data registers keep their values. -/
def State.raiseFault (s : State) (c : Cause) (w : CmdWord) : State :=
  (s.setStatus (statusFault s.status c)).setErrcmd w

/-- Drawing the unspecified registers afresh (R34, U1: arbitrary values, not assumed equal across resets). -/
def State.drawData (s : State) : State :=
  { s with
    ctx := Config.resetCtx s.draws
    blk := Config.resetBlk s.draws
    dig := Config.resetDig s.draws
    hex := Config.resetHex s.draws
    draws := s.draws + 1 }

/-- Assertion of `rst` (R180, R181): a command in flight is abandoned and the registers take their reset values. -/
def State.enterReset (s : State) : State :=
  ((((s.drawData).setStatus 0x00#8).setErrcmd 0x0000#16).setFlight none).setRst true

/-- Release of `rst` (R180): the engine is idle with the state of R34. Without an assertion before it, nothing happens
(log 7). -/
def State.leaveReset (s : State) : State :=
  if s.rst then
    ((((s.drawData).setStatus 0x00#8).setErrcmd 0x0000#16).setFlight none).setRst false
  else s

/-- `o` with its next state, if it has one, changed by `f`. -/
def onNext (f : State → State) : Result → Result
  | .next s => .next (f s)
  | .fault r => .fault r
  | .refused r => .refused r

/-! ### Operators of R10 and R11 that are not the word's own -/

/-- `x % m` (R10): the unsigned remainder, for 0 < m < 2^32. -/
def remBy (x : Word) (m : Nat) : Word := BitVec.ofNat 32 (x.toNat % m)

/-- `ROTL(x, n)` (R11), for n in 0..31 (log 13). -/
def rotl (x : Word) (n : Nat) : Word := (x <<< n) + (x >>> (32 - n))

/-- `ROTR(x, n)` (R11), for n in 0..31 (log 13). -/
def rotr (x : Word) (n : Nat) : Word := (x >>> n) + (x <<< (32 - n))

end Sys2Proof.Machine
end

