-- ==== Sys2Proof/Machine/Operands.lean ====
section
/-! DEFINITION. What the commands' operands stand for: the operand selectors of the wiring tables (R13) and the three byte
orders, which share no conversion (R40). -/

namespace Sys2Proof.Machine

/-! ### Selectors (R13), evaluated against the working words as they are now -/

/-- A Round 1 selector: `mi` is `U[i]`. -/
def sel1 (mi : Word) (wk : Words) : Sel1 → Word
  | .mi => mi
  | .wk n => wk[n]

/-- A selector of the inner temper function: `mi` is `U[i]`, `mj` is `U[J]`, `k` is `K`. -/
def selInner (mi mj k : Word) (wk : Words) : SelInner → Word
  | .kv => k
  | .mi => mi
  | .mj => mj
  | .wk n => wk[n]

/-- A selector of the outer temper function: `inner` is `INNER`. -/
def selOuter (inner mi mj k : Word) (wk : Words) : SelOuter → Word
  | .inner => inner
  | .kv => k
  | .mi => mi
  | .mj => mj
  | .wk n => wk[n]

/-! ### Byte orders -/

/-- Four bytes into a word, the first the least significant (R41, R101). -/
def wordOfBytesLE (b0 b1 b2 b3 : Byte) : Word := b3 ++ b2 ++ b1 ++ b0

/-- The eight message words of a block (R41, R101): word n covers bytes [4n, 4n+4), little-endian. -/
def loadWords (blk : Block) : Words :=
  Vector.ofFn fun n => wordOfBytesLE blk[4 * n.val] blk[4 * n.val + 1] blk[4 * n.val + 2] blk[4 * n.val + 3]

/-- Byte m of a word, the most significant first (R42): bits `31 - 8m : 24 - 8m`. -/
def byteOfWordBE (x : Word) (m : Nat) : Byte := x.extractLsb' (24 - 8 * m) 8

/-- The digest of an accumulator (R42, R141): `DIG[k]` is byte k mod 4 of word k div 4, most significant byte first. -/
def storeWords (ctx : Words) : Digest :=
  Vector.ofFn fun k => byteOfWordBE ctx[k.val / 4] (k.val % 4)

/-- The character code of a lowercase hex digit (R144). -/
def hexchar (v : BitVec 4) : Byte :=
  if v.toNat ≤ 9 then 0x30#8 + v.setWidth 8 else 0x61#8 + (v.setWidth 8 - 10#8)

/-- The hex string of a digest (R43, R143): two characters a byte, high nibble first. -/
def hexOfDigest (dig : Digest) : HexString :=
  Vector.ofFn fun k =>
    if k.val % 2 = 0 then hexchar (dig[k.val / 2].extractLsb' 4 4) else hexchar (dig[k.val / 2].extractLsb' 0 4)

end Sys2Proof.Machine
end

