-- ==== Sys2Proof/Machine/BlockLoad.lean ====
section
/-! DEFINITION. Block load and block padding: LDB and PAD (spec/41_block_load_pad.md). -/

namespace Sys2Proof.Machine

/-- LDB (R85): `BLK[idx] <- data`. -/
def execLdb (idx : BitVec 5) (data : Byte) (s : State) : Result := .next (s.writeBlk idx data)

/-- `for k in L..31: BLK[k] <- 0x00` (R87). -/
def zeroFill (blk : Block) (L : Nat) : Block :=
  Vector.ofFn fun k => if L ≤ k.val then 0x00#8 else blk[k]

/-- The block PAD makes of the first L bytes of a buffer (R87): for L < 32 the zero fill and then the marker at L; 32 bytes
are left as they are (R89). -/
def padBlock (blk : Block) (L : Nat) : Block :=
  if h : L < 32 then (zeroFill blk L).set L 0x80#8 h else blk

/-- PAD (R87): a length above 32 raises cause 3 and changes no data register (R91); the command word recorded is the one
that encodes this command (log 12). -/
def execPad (len : BitVec 6) (s : State) : Result :=
  if 32 < len.toNat then .next (s.raiseFault .padLength (encode (.pad len)))
  else .next (s.setBlk (padBlock s.blk len.toNat))

end Sys2Proof.Machine
end

