-- ==== Sys2Proof/Machine/Compress.lean ====
section
/-! DEFINITION. The two-round compressor: COMPRESS (spec/42_compress.md). The transient values of R31 are arguments and results
of pure functions; each loop runs over `idx8` in the order of the spec, and a working word is written back before the next
is computed. -/

namespace Sys2Proof.Machine

/-! ### Temper functions (R103) -/

/-- W (R104). -/
def temperW (a b c d e f g h : Word) : Word := ((a + b + c + d) ^^^ (e + ~~~f)) ^^^ (g &&& h)

/-- X (R105). -/
def temperX (a b c d e f g h : Word) : Word := ((a ^^^ b) + (c ^^^ d) + e) ^^^ (f + g + h)

/-- Y (R106). -/
def temperY (a b c d e f g h : Word) : Word := ((a + b) ^^^ (c + d) ^^^ e) + (f ^^^ g ^^^ h)

/-- Z (R107), grouped as the spec decides (D2; log 11). -/
def temperZ (a b c d e f g h : Word) : Word := (((g + (c &&& d) + (h ^^^ a)) ^^^ ~~~e) + ~~~b) ^^^ f

/-- `Temper(fn, v0, ..., v7)` (R108): the eight operands in the positions a..h. -/
def temper (fn : TemperFn) (v : Fin 8 → Word) : Word :=
  match fn with
  | .W => temperW (v 0) (v 1) (v 2) (v 3) (v 4) (v 5) (v 6) (v 7)
  | .X => temperX (v 0) (v 1) (v 2) (v 3) (v 4) (v 5) (v 6) (v 7)
  | .Y => temperY (v 0) (v 1) (v 2) (v 3) (v 4) (v 5) (v 6) (v 7)
  | .Z => temperZ (v 0) (v 1) (v 2) (v 3) (v 4) (v 5) (v 6) (v 7)

/-! ### Round 1 (R110, R111) -/

/-- The new value of target word t: `mi` is `U[i]`, `wk` the working words as they are now. -/
def round1Word (cfg : Cfg) (mi : Word) (wk : Words) (t : Fin 8) : Word :=
  temper cfg.r1[t].fn fun k => sel1 mi wk cfg.r1[t].ops[k]

/-- One target word computed and written back (R111). -/
def round1Target (cfg : Cfg) (mi : Word) (wk : Words) (t : Fin 8) : Words :=
  wk.set t.val (round1Word cfg mi wk t) t.isLt

/-- One iteration: all eight target words in the order A..H. -/
def round1Iter (cfg : Cfg) (mi : Word) (wk : Words) : Words := idx8.foldl (round1Target cfg mi) wk

/-- Round 1: eight iterations, iteration i with the message word `U[i]`. -/
def round1 (cfg : Cfg) (u wk : Words) : Words := idx8.foldl (fun wk i => round1Iter cfg u[i] wk) wk

/-! ### Round 2 (R115 to R122) -/

/-- The scalar K of iteration i (R118), from the working words at its start. -/
def scalarK (cfg : Cfg) (i : Fin 8) (wk : Words) : Word :=
  idx8.foldl (fun k n => k + remBy wk[n] (cfg.r2mod[n].modulus i)) 0

/-- The second index J of iteration i (R119). -/
def indexJ (i : Fin 8) : Fin 8 := ⟨(3 * i.val + 1) % 8, Nat.mod_lt _ (by decide)⟩

/-- `RR`: rotate-right amounts, O = 1 (R121). -/
def rrAmount (t : Fin 8) : Nat := #v[2, 3, 5, 7, 11, 13, 17, 19][t]

/-- `RL`: rotate-left amounts, O = 0 (R121). -/
def rlAmount (t : Fin 8) : Nat := #v[19, 17, 13, 11, 7, 5, 3, 2][t]

/-- What is fixed for one iteration of Round 2 (R117): `U[i]`, `U[J]` and `K`. -/
structure Iter2 where
  mi : Word
  mj : Word
  k  : Word
  deriving DecidableEq, Repr

/-- The bit O (R119): `K % 2`. -/
def oddBit (k : Word) : Bool := k.getLsbD 0

/-- The nested temper value of target word t (R120): `INNER` first, as a word, then the outer function. -/
def nestedWord (cfg : Cfg) (it : Iter2) (wk : Words) (t : Fin 8) : Word :=
  let inner := temper cfg.r2[t].ifn fun k => selInner it.mi it.mj it.k wk cfg.r2[t].iops[k]
  temper cfg.r2[t].ofn fun k => selOuter inner it.mi it.mj it.k wk cfg.r2[t].oops[k]

/-- The rotation of target word t (R121, R122): its own value to the right, or to the left the pre-rotation value of word
`P_LSRC[t]`, which `pre` holds. -/
def rotateWord (cfg : Cfg) (k : Word) (pre : Words) (t : Fin 8) (v : Word) : Word :=
  if oddBit k then rotr v (rrAmount t) else rotl pre[cfg.lsrc[t]] (rlAmount t)

/-- The working words and the pre-rotation values `PRE` (R122). -/
structure Work where
  wk  : Words
  pre : Words
  deriving DecidableEq, Repr

/-- One target word of Round 2: computed, noted in `PRE`, rotated and written back (R115, R117). -/
def round2Target (cfg : Cfg) (it : Iter2) (m : Work) (t : Fin 8) : Work :=
  let v := nestedWord cfg it m.wk t
  let pre := m.pre.set t.val v t.isLt
  { wk := m.wk.set t.val (rotateWord cfg it.k pre t v) t.isLt, pre := pre }

/-- What is fixed for iteration i (R117): from the working words at its start. -/
def iter2Of (cfg : Cfg) (u wk : Words) (i : Fin 8) : Iter2 :=
  { mi := u[i], mj := u[indexJ i], k := scalarK cfg i wk }

/-- One iteration of Round 2 (R115). -/
def round2Iter (cfg : Cfg) (u wk : Words) (i : Fin 8) : Words :=
  (idx8.foldl (round2Target cfg (iter2Of cfg u wk i)) { wk := wk, pre := wk }).wk

/-- Round 2: eight iterations, from the working words Round 1 left (R116). -/
def round2 (cfg : Cfg) (u wk : Words) : Words := idx8.foldl (round2Iter cfg u) wk

/-! ### Fold-back and the whole command -/

/-- `FA`: fold-back amounts (R124). -/
def faAmount (n : Fin 8) : Nat := #v[7, 5, 3, 2, 19, 17, 13, 11][n]

/-- One word of the fold-back (R124): the sum wraps first; right for A, C, E, G and left for B, D, F, H. -/
def foldWord (n : Fin 8) (old new : Word) : Word :=
  if n.val % 2 = 0 then rotr (old + new) (faAmount n) else rotl (old + new) (faAmount n)

/-- The fold-back (R124). -/
def foldBack (ctx wk : Words) : Words := Vector.ofFn fun n => foldWord n ctx[n] wk[n]

/-- COMPRESS as one pure function from (`CFG`, `CTX`, `BLK`) to the new `CTX` (R31, R125). -/
def compressWords (cfg : Cfg) (ctx : Words) (blk : Block) : Words :=
  foldBack ctx (round2 cfg (loadWords blk) (round1 cfg (loadWords blk) ctx))

/-- COMPRESS (R100, R125): it writes `CTX` and nothing else (R128) and never faults (R126). -/
def execCompress (s : State) : Result := .next (s.setCtx (compressWords s.cfg s.ctx s.blk))

end Sys2Proof.Machine
end

