-- ==== Sys2Proof/Machine/Context.lean ====
section
/-! DEFINITION. Context initialisation: INIT (spec/40_context_init.md). -/

namespace Sys2Proof.Machine

/-- INIT (R80): `CTX[n] <- P_IV[n]` for n in 0..7. It writes no flag and never faults. -/
def execInit (s : State) : Result := .next (s.setCtx s.cfg.iv)

end Sys2Proof.Machine
end

