-- ==== Sys2Proof/Machine/DigestOut.lean ====
section
/-! DEFINITION. Digest extraction and hex encoding: EXTRACT and HEXENC (spec/43_extract_hex.md). -/

namespace Sys2Proof.Machine

/-- EXTRACT (R140): `DIG` is the accumulator, each word most significant byte first. -/
def execExtract (s : State) : Result := .next (s.setDig (storeWords s.ctx))

/-- HEXENC (R143): `HEX` is the digest buffer in lowercase hex. It reads `DIG`, not `CTX` (R145). -/
def execHexenc (s : State) : Result := .next (s.setHex (hexOfDigest s.dig))

end Sys2Proof.Machine
end

