-- ==== Sys2Proof/Machine/Dispatch.lean ====
section
/-! DEFINITION. The meaning of each command: one arm per constructor (R65). -/

namespace Sys2Proof.Machine

def exec (i : Instr) (s : State) : Host.Outcome State Fault Refusal :=
  match i with
  | .init => Sys2Proof.Machine.execInit s
  | .pad len => Sys2Proof.Machine.execPad len s
  | .compress => Sys2Proof.Machine.execCompress s
  | .extract => Sys2Proof.Machine.execExtract s
  | .hexenc => Sys2Proof.Machine.execHexenc s
  | .ldb idx data => Sys2Proof.Machine.execLdb idx data s

end Sys2Proof.Machine
end

