-- ==== Sys2Proof/Machine/Ports.lean ====
section
/-! DEFINITION. The output ports (R33): functions of the state, so a read has no side effect and returns the element at the
instant of the read (R46, R50). -/

namespace Sys2Proof.Machine

/-- The `busy` output: a copy of `STATUS.BUSY` (R33, R166). -/
def State.busy (s : State) : Bool := statusBusy s.status

/-- The `err` output: a copy of `STATUS.ERR` (R33, R166). -/
def State.err (s : State) : Bool := statusErr s.status

/-- `cmd_ready` (R33): BUSY is 0, ERR is 0 and `rst` is not asserted. -/
def State.cmdReady (s : State) : Bool := !s.busy && !s.err && !s.rst

/-- `blk_byte` (R33). -/
def State.blkByte (s : State) (idx : BitVec 5) : Byte := s.blk[idx.toNat]'idx.isLt

/-- `dig_byte` (R33). -/
def State.digByte (s : State) (idx : BitVec 5) : Byte := s.dig[idx.toNat]'idx.isLt

/-- `hex_byte` (R33). -/
def State.hexByte (s : State) (idx : BitVec 6) : Byte := s.hex[idx.toNat]'idx.isLt

/-- `ctx_word` (R33). -/
def State.ctxWord (s : State) (idx : BitVec 3) : Word := s.ctx[idx.toNat]'idx.isLt

/-- What a read of a port returns, widened with zeros to 32 bits (R33, R50). -/
def State.readPort (s : State) : ReadPort → Word
  | .blk idx => (s.blkByte idx).setWidth 32
  | .dig idx => (s.digByte idx).setWidth 32
  | .hex idx => (s.hexByte idx).setWidth 32
  | .ctx idx => s.ctxWord idx
  | .status => s.status.setWidth 32
  | .errcmd => s.errcmd.setWidth 32

end Sys2Proof.Machine
end

