-- ==== Sys2Proof/Machine/Engine.lean ====
section
/-! DEFINITION. One step of the engine with its host (R49, R191): a move of the host, or the completion of the command in
flight. There is no program counter and no fetch (R24): the next command is the one in flight, which the host presented. -/

namespace Sys2Proof.Machine

/-- Completion of the accepted word `w` (R49): it is decoded (R66) and executed, or it faults (R163); either way it is no
longer in flight and BUSY is 0 (R25). -/
def complete (w : CmdWord) (s : State) : Result :=
  match decode w with
  | .ok i => onNext State.retire (exec i s)
  | .error c => .next (s.raiseFault c w).retire

/-- The engine's turn: the command in flight completes (R190); an idle engine does nothing until the host moves (R173,
R180); in the faulted state the engine has no step (R164). -/
def engineTurn (s : State) : Result :=
  match s.flight with
  | some w => complete w s
  | none => if s.err then .fault .faulted else .next s

/-- The host presents `w`, with `rest` to come after it (R33): accepted if the engine is ready; else it stays the host's
to present again, and it is the engine's turn (R187). -/
def presentWord (w : CmdWord) (rest : List HostMove) (s : State) : Result :=
  if s.cmdReady then .next ((s.setMoves rest).accept w) else engineTurn s

/-- The host lets time pass (R187, R190): a command in flight completes, otherwise nothing happens. -/
def waitTurn (s : State) : Result :=
  if s.flight.isSome then engineTurn s else .next s

/-- One step: the host's next move, or the engine's turn when the host has none left (log 8). -/
def advance (s : State) : Result :=
  match s.moves with
  | [] => engineTurn s
  | .assertRst :: rest => .next (s.setMoves rest).enterReset
  | .releaseRst :: rest => .next (s.setMoves rest).leaveReset
  | .present w :: rest => presentWord w rest s
  | .read _ :: rest => .next (s.setMoves rest)
  | .wait :: rest => waitTurn (s.setMoves rest)

/-- The state in which `w` is the accepted command and the host lets it complete: the very next step runs it (log 2). -/
def State.withCommand (s : State) (w : CmdWord) : State :=
  (s.setMoves (.wait :: s.moves)).accept w

end Sys2Proof.Machine
end

