-- ==== Sys2Proof/Machine/Step.lean ====
section
/-! DEFINITION. The step, and the placing of an instruction where the next step runs it. -/

namespace Sys2Proof.Machine

/-- One step (Machine/Engine.lean). -/
def step (s : State) : Host.Outcome State Fault Refusal := advance s

/-- `s` with the word `w` of the opcode table (its low `nbits` bits) accepted and in flight, and the host waiting for it: what
stands in this engine for "stored where the next instruction is fetched" (R24; log 2). -/
def State.withFetchWord (s : State) (nbits w : Nat) : State :=
  s.withCommand (BitVec.ofNat 16 (w % 2 ^ nbits))

end Sys2Proof.Machine
end

