-- ==== Sys2Proof/Machine/Message.lean ====
section
/-! DEFINITION. The host's command sequence for a whole message (spec/45_message_sequence.md): the pseudo-instructions of R70,
the blocks of a message, and the digest as a function of the configuration and the message (R156). The engine enforces none
of it (D19). -/

namespace Sys2Proof.Machine

/-- A list of commands executed one after another, each on the state the one before it left (R49). -/
def runCmds : List Instr → State → Result
  | [], s => .next s
  | i :: is, s =>
    match exec i s with
    | .next t => runCmds is t
    | .fault r => .fault r
    | .refused r => .refused r

/-- The moves of a host that presents these commands in order. -/
def presentAll (is : List Instr) : List HostMove := is.map fun i => .present (encode i)

/-- `LDCHUNK` (R70): byte k of the chunk into `BLK[k]`, for at most 32 bytes. -/
def ldChunk (bytes : List Byte) : List Instr := bytes.zipIdx.map fun p => .ldb (BitVec.ofNat 5 p.2) p.1

/-- `BLOCK` (R70). -/
def blockCmds (bytes : List Byte) : List Instr :=
  ldChunk bytes ++ [.pad (BitVec.ofNat 6 bytes.length), .compress]

/-- `FINISH` (R70). -/
def finishCmds : List Instr := [.extract, .hexenc]

/-- Chunk b of a message: bytes [32b, 32b+32), fewer at its end (R151). -/
def chunk (m : List Byte) (b : Nat) : List Byte := (m.drop (32 * b)).take 32

/-- The commands for full chunk b: PAD 32 is optional (R150, R154), and `padFull` says for which chunks it is issued. -/
def fullChunkCmds (padFull : Nat → Bool) (m : List Byte) (b : Nat) : List Instr :=
  ldChunk (chunk m b) ++ (if padFull b then [.pad 32] else []) ++ [.compress]

/-- The commands between INIT and EXTRACT (R150). -/
def bodyCmds (padFull : Nat → Bool) (m : List Byte) : List Instr :=
  if m.length = 0 then [.pad 0, .compress]
  else (List.range (m.length / 32)).flatMap (fullChunkCmds padFull m) ++
    (if 0 < m.length % 32 then blockCmds (chunk m (m.length / 32)) else [])

/-- `HASH m` (R70, R150). -/
def hashCmds (padFull : Nat → Bool) (m : List Byte) : List Instr :=
  .init :: (bodyCmds padFull m ++ finishCmds)

/-- The chunk as the first bytes of a buffer. What stands after them no rule reads (R88, R157; log 18). -/
def toBlock (bytes : List Byte) : Block := Vector.ofFn fun k => bytes.getD k.val 0x00#8

/-- The full blocks of a message. -/
def fullBlocks (m : List Byte) : List Block := (List.range (m.length / 32)).map fun b => toBlock (chunk m b)

/-- `blocks(m)` (R156): the empty message is one padded block (R152), and only a short final chunk is padded (R153). -/
def blocks (m : List Byte) : List Block :=
  if m.length = 0 then [padBlock (toBlock []) 0]
  else fullBlocks m ++
    (if 0 < m.length % 32 then [padBlock (toBlock (chunk m (m.length / 32))) (m.length % 32)] else [])

/-- `fold Compress over bs`, starting from `ctx` (R156). -/
def accumulate (cfg : Cfg) (ctx : Words) (bs : List Block) : Words := bs.foldl (compressWords cfg) ctx

/-- `LVHA256(CFG, m)` (R156). -/
def lvha256 (cfg : Cfg) (m : List Byte) : Digest := storeWords (accumulate cfg cfg.iv (blocks m))

/-- `LVHA256hex(CFG, m)` (R156). -/
def lvha256hex (cfg : Cfg) (m : List Byte) : HexString := hexOfDigest (lvha256 cfg m)

/-- The message m' of R189: m, the byte 0x80, and zero bytes up to the next multiple of 32. -/
def spelledOut (m : List Byte) : List Byte := m ++ 0x80#8 :: List.replicate (31 - m.length % 32) 0x00#8

end Sys2Proof.Machine
end

