-- ==== Sys2Proof/Safety.lean ====
section
/-! DEFINITION. The terms claims use: the invariant of the control registers, when a run has ended normally (R192), and what the
working words are while a round is under way (R111, R117). -/

namespace Sys2Proof.Machine

/-- The code under which a command word faults (R66, R161), 0 for a legal word. -/
def faultCode (w : CmdWord) : BitVec 3 :=
  match decode w with
  | .ok _ => 0
  | .error c => causeCode c

/-- The invariant of the control registers, in words: bits 7:5 of `STATUS` are 0 (R25); BUSY is 1 exactly while a command is
in flight (R25); with ERR = 0, CAUSE and `ERRCMD` are 0 (R25, R26); with ERR = 1, no command is in flight, `ERRCMD` holds a word
that faults and CAUSE is its cause (R161, R163, R164); while `rst` is asserted all of it is at reset (R180). -/
abbrev State.Inv (s : State) : Prop :=
  statusReserved s.status = 0 ∧
  s.busy = s.flight.isSome ∧
  (s.err = false → statusCause s.status = 0 ∧ s.errcmd = 0) ∧
  (s.err = true → s.flight = none ∧ statusCause s.status = faultCode s.errcmd ∧ statusCause s.status ≠ 0) ∧
  (s.rst = true → s.status = 0 ∧ s.flight = none)

/-- An idle engine with `rst` released: ready for a command, nothing in flight (R33, R173). -/
abbrev State.Idle (s : State) : Prop := s.cmdReady = true ∧ s.flight = none

/-- The run has ended normally (R192): the host has presented every word, the last has completed and `STATUS` is 0x00.
DESIGN CHOICE (log 19): R192 says nothing of `rst` asserted in the middle of the list; the predicate does not look at `rst` or at
what was abandoned, so it holds of a state still held in reset whose host has no move left. -/
abbrev State.EndedNormally (s : State) : Prop := s.moves = [] ∧ s.flight = none ∧ s.status = 0

/-- It is the engine's turn, with `rest` the moves left after it: the host waits or has no move left. -/
abbrev State.EngineNext (s : State) (rest : List HostMove) : Prop :=
  s.moves = .wait :: rest ∨ (s.moves = [] ∧ rest = [])

/-- The six registers of R20. -/
abbrev State.SameRegisters (s t : State) : Prop :=
  t.ctx = s.ctx ∧ t.blk = s.blk ∧ t.dig = s.dig ∧ t.hex = s.hex ∧ t.status = s.status ∧ t.errcmd = s.errcmd

/-- The working words at the moment target t is computed (R111, R117): this iteration's new values below t, the values from
before it at t and above. -/
def feedForward (new old : Words) (t : Fin 8) : Words :=
  Vector.ofFn fun n => if n < t then new[n] else old[n]

/-- The value target t of Round 2 has before its rotation, in an iteration that takes `wk` to `new` (R117, R120). -/
def preRotation (cfg : Cfg) (u wk new : Words) (i t : Fin 8) : Word :=
  nestedWord cfg (iter2Of cfg u wk i) (feedForward new wk t) t

end Sys2Proof.Machine
end

