-- ==== Sys2Proof/Certificates/Slice0/Obligations.lean ====
section
/-! DEFINITION. The statements for the provers, in the order of the spec's files: words and operators, decoding, the commands,
faults and reset, the handshake with the host, whole runs and whole messages. Each docstring names the rule it formalises. Where
that rule is the spec's own decision (D1 to D24), the statement's entry in OBLIGATIONS.json has basis 'derived' and names the decision;
where the statement rests on the model's own form, the docstring names the log entry. -/

open Sys2Proof Sys2Proof.Machine

/-! ### Words and operators (spec/00_scope.md) -/

/-- R11: the arithmetic form of the rotations, where bit i goes, and `ROTR` as a `ROTL`. -/
def Obligations.RotationsMoveBits : Prop :=
  ∀ (x : Word) (n : Nat), n < 32 →
    rotl x 0 = x ∧ rotr x 0 = x ∧
    (0 < n → (rotl x n).toNat = x.toNat * 2 ^ n % 2 ^ 32 + x.toNat / 2 ^ (32 - n)) ∧
    (0 < n → (rotr x n).toNat = x.toNat / 2 ^ n + x.toNat * 2 ^ (32 - n) % 2 ^ 32) ∧
    (∀ i : Nat, i < 32 → (rotl x n).getLsbD ((i + n) % 32) = x.getLsbD i) ∧
    (∀ i : Nat, i < 32 → (rotr x n).getLsbD ((i + 32 - n) % 32) = x.getLsbD i) ∧
    rotr x n = rotl x ((32 - n) % 32)

/-! ### Decoding (spec/30_encoding.md) -/

/-- Decoding the encoding of any well-formed command gives it back, every operand at every value (R65, R66). -/
def Obligations.DecodeOfEncode : Prop :=
  ∀ i : Instr, i.WellFormed → decode (encode i) = .ok i

/-- A word that decodes is the encoding of a well-formed command, and of no other (R65, R66). -/
def Obligations.EncodeOfDecode : Prop :=
  ∀ (w : CmdWord) (i : Instr), decode w = .ok i → i.WellFormed ∧ encode i = w

/-- Words written out bit by bit from R65's map (V10) and illegal words (V11). -/
def Obligations.DecodeSampleWords : Prop :=
  decode 0b0010000000000000#16 = .ok .init ∧
  decode 0b0100000000011111#16 = .ok (.pad 31) ∧
  decode 0b0100000000100000#16 = .ok (.pad 32) ∧
  decode 0b0110000000000000#16 = .ok .compress ∧
  decode 0b1000000000000000#16 = .ok .extract ∧
  decode 0b1010000000000000#16 = .ok .hexenc ∧
  decode 0b1100000001100001#16 = .ok (.ldb 0 0x61) ∧
  decode 0b1101111111111111#16 = .ok (.ldb 31 0xFF) ∧
  decode 0x0000#16 = .error .reservedOpcode ∧
  decode 0xFFFF#16 = .error .reservedOpcode ∧
  decode 0x2001#16 = .error .reservedField ∧
  decode 0x4FFF#16 = .error .reservedField ∧
  decode 0x4021#16 = .error .padLength

/-- R66, case by case, on the word as a number: `op` is `w / 8192`, `cmd[12:0]` is `w % 8192`, `cmd[12:6]` is
`w % 8192 / 64`, `cmd[5:0]` is `w % 64`. The first cause that applies is given; any other word is the command of R65's row. -/
def Obligations.DecodingIsTotalInOrder : Prop :=
  ∀ w : CmdWord,
    (w.toNat / 8192 = 0 ∨ w.toNat / 8192 = 7 → decode w = .error .reservedOpcode) ∧
    (w.toNat / 8192 = 1 ∨ w.toNat / 8192 = 3 ∨ w.toNat / 8192 = 4 ∨ w.toNat / 8192 = 5 →
      w.toNat % 8192 ≠ 0 → decode w = .error .reservedField) ∧
    (w.toNat / 8192 = 2 → w.toNat % 8192 / 64 ≠ 0 → decode w = .error .reservedField) ∧
    (w.toNat / 8192 = 2 → w.toNat % 8192 / 64 = 0 → 32 < w.toNat % 64 → decode w = .error .padLength) ∧
    (w.toNat / 8192 = 1 → w.toNat % 8192 = 0 → decode w = .ok .init) ∧
    (w.toNat / 8192 = 2 → w.toNat % 8192 / 64 = 0 → w.toNat % 64 ≤ 32 →
      decode w = .ok (.pad (BitVec.ofNat 6 (w.toNat % 64)))) ∧
    (w.toNat / 8192 = 3 → w.toNat % 8192 = 0 → decode w = .ok .compress) ∧
    (w.toNat / 8192 = 4 → w.toNat % 8192 = 0 → decode w = .ok .extract) ∧
    (w.toNat / 8192 = 5 → w.toNat % 8192 = 0 → decode w = .ok .hexenc) ∧
    (w.toNat / 8192 = 6 →
      decode w = .ok (.ldb (BitVec.ofNat 5 (w.toNat % 8192 / 256)) (BitVec.ofNat 8 (w.toNat % 256))))

/-- The legal words are exactly those of R65's table, as ranges of numbers (R65, R67). -/
def Obligations.LegalWordsExactly : Prop :=
  ∀ w : CmdWord, (∃ i, decode w = .ok i) ↔
    (w = 0x2000#16 ∨ (0x4000 ≤ w.toNat ∧ w.toNat ≤ 0x4020) ∨ w = 0x6000#16 ∨ w = 0x8000#16 ∨ w = 0xA000#16 ∨
      (0xC000 ≤ w.toNat ∧ w.toNat ≤ 0xDFFF))

/-! ### INIT, LDB, PAD (spec/40_context_init.md, spec/41_block_load_pad.md) -/

/-- R80: INIT completes in every state, writes the eight constants and changes nothing else. -/
def Obligations.InitWritesConstants : Prop :=
  ∀ s : State, ∃ t, exec .init s = .next t ∧ t = { s with ctx := t.ctx } ∧ ∀ n : Fin 8, t.ctx[n] = s.cfg.iv[n]

/-- R81: two INITs leave the same state as one, and what INIT leaves in `CTX` does not depend on any earlier state. -/
def Obligations.InitForgetsThePast : Prop :=
  (∀ s : State, runCmds [.init, .init] s = runCmds [.init] s) ∧
  (∀ s s' : State, s.cfg = s'.cfg → ∃ t t', exec .init s = .next t ∧ exec .init s' = .next t' ∧ t.ctx = t'.ctx)

/-- R85, R86: LDB completes in every state, writes one byte of `BLK` and changes nothing else; two LDBs to one index leave
the last one's byte, and LDBs to different indices may be exchanged. -/
def Obligations.LdbWritesOneByte : Prop :=
  (∀ (s : State) (idx : BitVec 5) (data : Byte), ∃ t, exec (.ldb idx data) s = .next t ∧ t = { s with blk := t.blk } ∧
    t.blkByte idx = data ∧ ∀ k : BitVec 5, k ≠ idx → t.blkByte k = s.blkByte k) ∧
  (∀ (s : State) (idx : BitVec 5) (d d' : Byte), runCmds [.ldb idx d, .ldb idx d'] s = runCmds [.ldb idx d'] s) ∧
  (∀ (s : State) (idx idx' : BitVec 5) (d d' : Byte), idx ≠ idx' →
    runCmds [.ldb idx d, .ldb idx' d'] s = runCmds [.ldb idx' d', .ldb idx d] s)

/-- R88: PAD with L < 32 completes; the chunk's bytes stay, the marker is at L, zeros follow, and nothing but `BLK` changes.
So what `BLK[L..31]` held has no influence. -/
def Obligations.PadShortChunk : Prop :=
  ∀ (s : State) (len : BitVec 6), len.toNat < 32 → ∃ t, exec (.pad len) s = .next t ∧ t = { s with blk := t.blk } ∧
    ∀ k : Fin 32, t.blk[k] =
      (if k.val < len.toNat then s.blk[k] else if k.val = len.toNat then 0x80#8 else 0x00#8)

/-- R89: PAD 32 is legal; it changes nothing; presented to an idle engine it is accepted, and after it has completed every
register is as it was; left out or not before a COMPRESS, the result is the same. Its word is the spec's decision D4, and that its
run takes two steps, the host presenting it and waiting, is the model's form (log 2, 8). -/
def Obligations.PadFullChangesNothing : Prop :=
  decode 0x4020#16 = .ok (.pad 32) ∧
  (∀ s : State, exec (.pad 32) s = .next s) ∧
  (∀ s : State, runCmds [.pad 32, .compress] s = runCmds [.compress] s) ∧
  (∀ (s : State) (rest : List HostMove), s.Idle →
    core.run 2 { s with moves := .present 0x4020#16 :: .wait :: rest } = .next { s with moves := rest })

/-- R90: PAD 0 gives the block of the empty message whatever `BLK` held. -/
def Obligations.PadEmptyChunk : Prop :=
  ∀ s : State, ∃ t, exec (.pad 0) s = .next t ∧ t = { s with blk := t.blk } ∧
    (∀ k : Fin 32, t.blk[k] = (if k.val = 0 then 0x80#8 else 0x00#8)) ∧ blocks [] = [t.blk]

/-- R91: PAD with a length in 33..63 faults with cause 3 and changes nothing but `STATUS` and `ERRCMD`, both as a command
executed and as a word decoded (the fault by the command executed is the model's form, log 12). -/
def Obligations.PadTooLongFaults : Prop :=
  ∀ len : BitVec 6, 32 < len.toNat →
    decode (encode (.pad len)) = .error .padLength ∧
    ∀ s : State, ∃ t, exec (.pad len) s = .next t ∧ t = { s with status := t.status, errcmd := t.errcmd } ∧
      t.busy = false ∧ t.err = true ∧ statusCause t.status = 3 ∧ t.errcmd = BitVec.ofNat 16 (0x4000 + len.toNat)

/-- R92 (a), (b) and (d): PAD is idempotent; a short chunk and the full chunk that spells out its padding give one block; two
short chunks of different lengths never do, since the last non-zero byte is the marker; only `BLK` and the word matter. -/
def Obligations.PadProperties : Prop :=
  (∀ (b : Block) (L : Nat), L ≤ 32 → padBlock (padBlock b L) L = padBlock b L) ∧
  (∀ (b b' : Block) (L : Nat), L < 32 →
    (∀ k : Fin 32, b'[k] = (if k.val < L then b[k] else if k.val = L then 0x80#8 else 0x00#8)) →
      padBlock b' 32 = padBlock b L) ∧
  (∀ (b b' : Block) (L L' : Nat), L < 32 → L' < 32 → padBlock b L = padBlock b' L' → L = L') ∧
  (∀ (b : Block) (L : Nat) (h : L < 32), (padBlock b L)[L] ≠ 0 ∧ ∀ k : Fin 32, L < k.val → (padBlock b L)[k] = 0) ∧
  (∀ (s s' : State) (len : BitVec 6), len.toNat ≤ 32 → s.blk = s'.blk →
    ∃ b, exec (.pad len) s = .next { s with blk := b } ∧ exec (.pad len) s' = .next { s' with blk := b })

/-! ### COMPRESS (spec/42_compress.md) -/

/-- R101: the eight message words are the block's bytes, the lower index the less significant (the spec's decision D1, log 11). -/
def Obligations.MessageWordsLittleEndian : Prop :=
  ∀ (blk : Block) (n : Fin 8), (loadWords blk)[n].toNat =
    blk[4 * n.val].toNat + 2 ^ 8 * blk[4 * n.val + 1].toNat + 2 ^ 16 * blk[4 * n.val + 2].toNat +
      2 ^ 24 * blk[4 * n.val + 3].toNat

/-- R104 to R106: the temper functions W, X and Y with their operands in the order a..h, and the examples the rules give. -/
def Obligations.TemperFunctionsWXY : Prop :=
  (∀ v : Fin 8 → Word,
    temper .W v = ((v 0 + v 1 + v 2 + v 3) ^^^ (v 4 + ~~~(v 5))) ^^^ (v 6 &&& v 7) ∧
    temper .X v = ((v 0 ^^^ v 1) + (v 2 ^^^ v 3) + v 4) ^^^ (v 5 + v 6 + v 7) ∧
    temper .Y v = ((v 0 + v 1) ^^^ (v 2 + v 3) ^^^ v 4) + (v 5 ^^^ v 6 ^^^ v 7)) ∧
  temperW 0 0 0 0 0 0 0 0 = 0xFFFFFFFF ∧ temperW 1 2 3 4 5 6 7 8 = 0xFFFFFFF4 ∧
  temperX 0 0 0 0 0 0 0 0 = 0 ∧ temperX 1 2 3 4 5 6 7 8 = 0x1A ∧
  temperY 0 0 0 0 0 0 0 0 = 0 ∧ temperY 1 2 3 4 5 6 7 8 = 0x0A

/-- Temper function Z as the four steps p, q, r, Z that the spec's reading of its unbracketed formula gives, and the examples.
The grouping is the spec's own decision D2, not the document's (log 11). -/
def Obligations.TemperFunctionZ : Prop :=
  (∀ v : Fin 8 → Word, ∃ p q r : Word,
    p = v 6 + (v 2 &&& v 3) + (v 7 ^^^ v 0) ∧ q = p ^^^ ~~~(v 4) ∧ r = q + ~~~(v 1) ∧ temper .Z v = r ^^^ v 5) ∧
  temperZ 0 0 0 0 0 0 0 0 = 0xFFFFFFFE ∧ temperZ 1 2 3 4 5 6 7 8 = 0xFFFFFFE1

/-- R111 (and R110): from a copy of `CTX`, eight iterations; in each, target t is computed from this iteration's new words below
it and the old words at and above it, by the wiring of t and with the one message word of the iteration: the selector `MI` is that
word, and `WK(n)` is word n as it is then. -/
def Obligations.Round1FeedsForward : Prop :=
  (∀ (cfg : Cfg) (u ctx : Words), ∃ r : Nat → Words, r 0 = ctx ∧ r 8 = round1 cfg u ctx ∧
    ∀ i t : Fin 8, (r (i.val + 1))[t] =
      temper cfg.r1[t].fn (fun k => sel1 u[i] (feedForward (r (i.val + 1)) (r i.val) t) cfg.r1[t].ops[k])) ∧
  (∀ (mi : Word) (new old : Words) (t : Fin 8), sel1 mi (feedForward new old t) .mi = mi ∧
    ∀ n : Fin 8, sel1 mi (feedForward new old t) (.wk n) = if n < t then new[n] else old[n])

/-- R118: K is the sum modulo 2^32 of the eight remainders, no modulus is 0 or reaches 2^32, and K is at most the sum of the
moduli less one. The width of K and the condition on the moduli are the spec's own decision D15 (log 4, 11). -/
def Obligations.ScalarKIsSumOfRemainders : Prop :=
  ∀ (cfg : Cfg) (i : Fin 8) (wk : Words),
    (∀ n : Fin 8, i.val * cfg.r2mod[n].c + cfg.r2mod[n].d ≠ 0 ∧ i.val * cfg.r2mod[n].c + cfg.r2mod[n].d < 2 ^ 32) ∧
    (scalarK cfg i wk).toNat =
      (∑ n : Fin 8, wk[n].toNat % (i.val * cfg.r2mod[n].c + cfg.r2mod[n].d)) % 2 ^ 32 ∧
    (scalarK cfg i wk).toNat ≤ ∑ n : Fin 8, (i.val * cfg.r2mod[n].c + cfg.r2mod[n].d - 1)

/-- R119: O is K % 2, and J is (3 i + 1) % 8, a permutation of the indices that fixes none. -/
def Obligations.ParityAndSecondIndex : Prop :=
  (∀ k : Word, oddBit k = (k.toNat % 2 == 1)) ∧
  (∀ i : Fin 8, (indexJ i).val = (3 * i.val + 1) % 8 ∧ indexJ i ≠ i) ∧
  (idx8.map indexJ = [1, 4, 7, 2, 5, 0, 3, 6]) ∧
  Function.Bijective indexJ

/-- In an iteration of Round 2, K is that of the words at its start for all eight targets; target t
takes its value before rotation from the new words below it and the old words at and above it, and is rotated before the next
target is computed: right by 2, 3, 5, 7, 11, 13, 17, 19 when K is odd; else the pre-rotation value of word `P_LSRC[t]`, which
for a word above t is its value at the start of the iteration, left by 19, 17, 13, 11, 7, 5, 3, 2. The order inside the iteration
and the meaning of `P_LSRC` are the spec's own readings D12 and D13 (log 11). -/
def Obligations.Round2FeedsForward : Prop :=
  ∀ (cfg : Cfg) (u wk : Words) (i t : Fin 8),
    (round2Iter cfg u wk i)[t] =
      if (scalarK cfg i wk).toNat % 2 = 1 then
        rotr (preRotation cfg u wk (round2Iter cfg u wk i) i t) #v[2, 3, 5, 7, 11, 13, 17, 19][t]
      else
        rotl (if cfg.lsrc[t] ≤ t then preRotation cfg u wk (round2Iter cfg u wk i) i cfg.lsrc[t] else wk[cfg.lsrc[t]])
          #v[19, 17, 13, 11, 7, 5, 3, 2][t]

/-- R120: the value before rotation is the outer function applied to the value of the inner function, K, the message words
`U[i]` and `U[J]` and the working words, each at its place in the wiring of t; and R13's table, which word each selector stands
for: `MI` is `U[i]`, `MJ` is `U[J]`, `KV` is K, `IN` is the inner value, `WK(n)` is `WK[n]` as it is now. That K is an operand, not
an addend, is the spec's decision D16 (log 11). -/
def Obligations.NestedTemperValue : Prop :=
  (∀ (cfg : Cfg) (u wk0 wk : Words) (i t : Fin 8),
    nestedWord cfg (iter2Of cfg u wk0 i) wk t =
      temper cfg.r2[t].ofn (fun k =>
        selOuter (temper cfg.r2[t].ifn (fun k => selInner u[i] u[indexJ i] (scalarK cfg i wk0) wk cfg.r2[t].iops[k]))
          u[i] u[indexJ i] (scalarK cfg i wk0) wk cfg.r2[t].oops[k])) ∧
  (∀ (inner mi mj k : Word) (wk : Words),
    selOuter inner mi mj k wk .inner = inner ∧ selOuter inner mi mj k wk .kv = k ∧
    selOuter inner mi mj k wk .mi = mi ∧ selOuter inner mi mj k wk .mj = mj ∧
    ∀ n : Fin 8, selOuter inner mi mj k wk (.wk n) = wk[n]) ∧
  (∀ (mi mj k : Word) (wk : Words),
    selInner mi mj k wk .kv = k ∧ selInner mi mj k wk .mi = mi ∧ selInner mi mj k wk .mj = mj ∧
    ∀ n : Fin 8, selInner mi mj k wk (.wk n) = wk[n]) ∧
  (∀ (mi : Word) (wk : Words), sel1 mi wk .mi = mi ∧ ∀ n : Fin 8, sel1 mi wk (.wk n) = wk[n])

/-- R122: in the regular case every word's own value before rotation is rotated, in both directions. -/
def Obligations.RegularWiringRotatesOwnValue : Prop :=
  ∀ (cfg : Cfg), cfg.Regular → ∀ (u wk : Words) (i t : Fin 8),
    (round2Iter cfg u wk i)[t] =
      (if oddBit (scalarK cfg i wk) then rotr (preRotation cfg u wk (round2Iter cfg u wk i) i t) (rrAmount t)
       else rotl (preRotation cfg u wk (round2Iter cfg u wk i) i t) (rlAmount t))

/-- R124: COMPRESS folds each word of `CTX` with its own working word, as it stands after both rounds: the sum wraps first, then
it is rotated right for A, C, E, G and left for B, D, F, H, by 7, 5, 3, 2, 19, 17, 13, 11. That Round 1 starts from `CTX` and Round 2
from what Round 1 left is the spec's decision D14 (log 11). -/
def Obligations.FoldBackAmounts : Prop :=
  ∀ s : State, ∃ (t : State) (wk : Words), exec .compress s = .next t ∧
    wk = round2 s.cfg (loadWords s.blk) (round1 s.cfg (loadWords s.blk) s.ctx) ∧
    t.ctx =
      #v[rotr (s.ctx[0] + wk[0]) 7, rotl (s.ctx[1] + wk[1]) 5, rotr (s.ctx[2] + wk[2]) 3, rotl (s.ctx[3] + wk[3]) 2,
         rotr (s.ctx[4] + wk[4]) 19, rotl (s.ctx[5] + wk[5]) 17, rotr (s.ctx[6] + wk[6]) 13, rotl (s.ctx[7] + wk[7]) 11]

/-- R100, R102, R110, R115, R116, R125, R128: COMPRESS completes in every state and changes `CTX` alone; the new `CTX` is the
fold-back of the old one with the words that eight iterations of Round 1, from a copy of `CTX`, and then eight of Round 2, from
what Round 1 left, give; iteration i of Round 1 takes message word `U[i]`. The starting values are the spec's decision D14
(log 11). -/
def Obligations.CompressRunsBothRounds : Prop :=
  ∀ s : State, ∃ t, exec .compress s = .next t ∧ t = { s with ctx := t.ctx } ∧
    ∃ r1 r2 : Nat → Words,
      r1 0 = s.ctx ∧ (∀ i : Fin 8, r1 (i.val + 1) = round1Iter s.cfg (loadWords s.blk)[i] (r1 i.val)) ∧
      r2 0 = r1 8 ∧ (∀ i : Fin 8, r2 (i.val + 1) = round2Iter s.cfg (loadWords s.blk) (r2 i.val) i) ∧
      t.ctx = foldBack s.ctx (r2 8)

/-- R128: COMPRESS is a function of (`CFG`, `CTX`, `BLK`): what stands elsewhere has no influence on the new accumulator, and
`BLK`, `DIG`, `HEX`, `ERRCMD`, `STATUS` are left alone. -/
def Obligations.CompressReadsOnlyCtxAndBlk : Prop :=
  ∀ s s' : State, s.cfg = s'.cfg → s.ctx = s'.ctx → s.blk = s'.blk →
    ∃ t t', exec .compress s = .next t ∧ exec .compress s' = .next t' ∧ t.ctx = t'.ctx ∧
      t.blk = s.blk ∧ t.dig = s.dig ∧ t.hex = s.hex ∧ t.errcmd = s.errcmd ∧ t.status = s.status

/-! ### EXTRACT and HEXENC (spec/43_extract_hex.md) -/

/-- R140: EXTRACT completes in every state, writes the digest most significant byte first and changes nothing else. -/
def Obligations.ExtractBigEndian : Prop :=
  ∀ s : State, ∃ t, exec .extract s = .next t ∧ t = { s with dig := t.dig } ∧
    ∀ n : Fin 8,
      t.dig[4 * n.val] = s.ctx[n].extractLsb' 24 8 ∧ t.dig[4 * n.val + 1] = s.ctx[n].extractLsb' 16 8 ∧
      t.dig[4 * n.val + 2] = s.ctx[n].extractLsb' 8 8 ∧ t.dig[4 * n.val + 3] = s.ctx[n].extractLsb' 0 8

/-- R141: the closed form of `DIG[k]`; as one number with `DIG[0]` most significant, `DIG` is A || B || ... || H; and the order
is the opposite of the block load's. -/
def Obligations.DigestAsOneNumber : Prop :=
  (∀ (ctx : Words) (k : Fin 32), (storeWords ctx)[k] = ctx[k.val / 4].extractLsb' (24 - 8 * (k.val % 4)) 8) ∧
  (∀ ctx : Words,
    (storeWords ctx).toList.foldl (fun acc b => acc * 2 ^ 8 + b.toNat) 0 =
      ctx.toList.foldl (fun acc x => acc * 2 ^ 32 + x.toNat) 0) ∧
  (∀ blk : Block, blk[0] = 0x01 → blk[1] = 0x02 → blk[2] = 0x03 → blk[3] = 0x04 → (loadWords blk)[0] = 0x04030201#32) ∧
  (∀ ctx : Words, ctx[0] = 0x04030201#32 →
    (storeWords ctx)[0] = 0x04 ∧ (storeWords ctx)[1] = 0x03 ∧ (storeWords ctx)[2] = 0x02 ∧ (storeWords ctx)[3] = 0x01)

/-- R144: the sixteen character codes, their two formulas, and no upper-case code (ASCII codes: the spec's decision D7,
log 11). -/
def Obligations.HexCharacterCodes : Prop :=
  ((List.range 16).map (fun v => hexchar (BitVec.ofNat 4 v)) =
    [0x30, 0x31, 0x32, 0x33, 0x34, 0x35, 0x36, 0x37, 0x38, 0x39, 0x61, 0x62, 0x63, 0x64, 0x65, 0x66]) ∧
  (∀ v : BitVec 4, v.toNat ≤ 9 → (hexchar v).toNat = 0x30 + v.toNat) ∧
  (∀ v : BitVec 4, 10 ≤ v.toNat → (hexchar v).toNat = 0x61 + (v.toNat - 10)) ∧
  (∀ (s t : State) (k : Fin 64), exec .hexenc s = .next t → ¬(0x41 ≤ t.hex[k].toNat ∧ t.hex[k].toNat ≤ 0x46))

/-- R143, R145: HEXENC completes in every state, writes two lowercase characters a byte of `DIG`, high nibble first, and
changes nothing else; it reads no register but `DIG`. -/
def Obligations.HexencWritesLowercase : Prop :=
  (∀ s : State, ∃ t, exec .hexenc s = .next t ∧ t = { s with hex := t.hex } ∧
    ∀ k : Fin 32,
      t.hex[2 * k.val] = hexchar (s.dig[k].extractLsb' 4 4) ∧
      t.hex[2 * k.val + 1] = hexchar (s.dig[k].extractLsb' 0 4)) ∧
  (∀ s s' t t' : State, s.dig = s'.dig → exec .hexenc s = .next t → exec .hexenc s' = .next t' → t.hex = t'.hex)

/-- R146: after EXTRACT and HEXENC, characters 8n + 2m and 8n + 2m + 1 are the hex digits of byte 3 - m of word n, high
nibble first. -/
def Obligations.HexOfAccumulator : Prop :=
  ∀ s : State, ∃ t, runCmds [.extract, .hexenc] s = .next t ∧
    ∀ (n : Fin 8) (m : Fin 4),
      t.hex[8 * n.val + 2 * m.val] = hexchar (s.ctx[n].extractLsb' (8 * (3 - m.val) + 4) 4) ∧
      t.hex[8 * n.val + 2 * m.val + 1] = hexchar (s.ctx[n].extractLsb' (8 * (3 - m.val)) 4)

/-- R142, R186: EXTRACT leaves `CTX`, so it does not disturb the computation: a COMPRESS after it gives the accumulator a
COMPRESS without it gives; it leaves `HEX`, and COMPRESS and INIT leave `DIG` and `HEX`. -/
def Obligations.ExtractDisturbsNothing : Prop :=
  ∀ s : State, ∃ t te tc ti, exec .compress s = .next t ∧ runCmds [.extract, .compress] s = .next tc ∧
    exec .extract s = .next te ∧ exec .init s = .next ti ∧
    tc.ctx = t.ctx ∧ te.ctx = s.ctx ∧ te.blk = s.blk ∧ te.hex = s.hex ∧
    t.dig = s.dig ∧ t.hex = s.hex ∧ ti.dig = s.dig ∧ ti.hex = s.hex

/-! ### Faults and reset (spec/60_exceptions.md, spec/70_reset_and_hazards.md) -/

/-- R160: no legal command faults, whatever the state: it always completes, and leaves `STATUS` and `ERRCMD` as they were. -/
def Obligations.LegalCommandsComplete : Prop :=
  ∀ (i : Instr), i.WellFormed → ∀ s : State,
    ∃ t, exec i s = .next t ∧ t.status = s.status ∧ t.errcmd = s.errcmd ∧ t.flight = s.flight ∧ t.moves = s.moves

/-- R163: fault entry, when the accepted word w is illegal: ERR is 1, CAUSE its cause, `ERRCMD` is w, BUSY is 0, and nothing else
changes (the word is no longer in flight). `STATUS` is given as a number too, so that BUSY is bit 0, ERR bit 1, CAUSE bits 4:2 and
the reserved bits 7:5 (R25), with the three cause codes of R161. -/
def Obligations.FaultEntry : Prop :=
  (∀ (s : State) (w : CmdWord) (c : Cause) (rest : List HostMove),
    s.flight = some w → decode w = .error c → s.EngineNext rest →
    ∃ t, step s = .next t ∧
      t = { s with status := t.status, errcmd := w, flight := none, moves := rest } ∧
      t.status.toNat = 32 * (s.status.toNat / 32) + 4 * (causeCode c).toNat + 2 ∧
      t.err = true ∧ statusCause t.status = causeCode c ∧ t.busy = false ∧
      statusReserved t.status = statusReserved s.status) ∧
  causeCode .reservedOpcode = 1 ∧ causeCode .reservedField = 2 ∧ causeCode .padLength = 3 ∧
  (∀ st : BitVec 8, (statusCause st).toNat = st.toNat / 4 % 8 ∧ (statusReserved st).toNat = st.toNat / 32)

/-- R164: in the faulted state no word is accepted, INIT included; the engine has no step, whether the host presents a word
or has no move left; and until `rst` is asserted, whatever step is taken leaves every register as the fault left it. That the stuck
engine answers `Fault.faulted` is the model's form (log 9). -/
def Obligations.FaultedUntilReset : Prop :=
  ∀ s : State, s.Inv → s.err = true →
    s.cmdReady = false ∧
    (s.moves = [] → step s = .fault .faulted) ∧
    (∀ (w : CmdWord) (rest : List HostMove), s.moves = .present w :: rest → step s = .fault .faulted) ∧
    (∀ (p : ReadPort) (rest : List HostMove), s.moves = .read p :: rest → step s = .next { s with moves := rest }) ∧
    (∀ t : State, (∀ rest, s.moves ≠ .assertRst :: rest) → step s = .next t → s.SameRegisters t)

/-- R25, R165: ERR, once 1, is cleared by hardware reset only. -/
def Obligations.ErrClearedByResetOnly : Prop :=
  ∀ s t : State, s.Inv → step s = .next t → s.err = true → t.err = false → ∃ rest, s.moves = .assertRst :: rest

/-- R26: `ERRCMD` changes by a fault, which writes the faulting word, or by hardware reset; once it holds a faulting word,
nothing but hardware reset changes it. -/
def Obligations.ErrcmdWrittenByFaultOrReset : Prop :=
  ∀ s t : State, s.Inv → step s = .next t →
    (t.err = false → t.errcmd = 0) ∧
    (t.errcmd ≠ s.errcmd →
      (∃ rest, s.moves = .assertRst :: rest ∧ t.errcmd = 0) ∨
      (s.err = false ∧ ∃ w c, s.flight = some w ∧ decode w = .error c ∧ t.errcmd = w ∧ t.err = true)) ∧
    (∀ w c rest, s.flight = some w → decode w = .error c → s.EngineNext rest → t.errcmd = w)

/-- What R34 and R180 give right after hardware reset, and the invariant: the engine is idle and ready, `STATUS` and `ERRCMD` are 0.
(The data registers are free values, log 5: nothing is stated of them.) -/
def Obligations.ResetLeavesIdleEngine : Prop :=
  State.reset.Inv ∧ State.reset.Idle ∧ State.reset.status = 0x00#8 ∧ State.reset.errcmd = 0x0000#16 ∧
    State.reset.busy = false ∧ State.reset.err = false

/-- R180, R181: asserting `rst` works in every state, busy or faulted too: the command in flight is abandoned, no command is
accepted, `STATUS` and `ERRCMD` are 0; releasing it leaves an idle engine; the wiring parameters are untouched (`rst` as two
moves: log 7). -/
def Obligations.HardwareReset : Prop :=
  ∀ (s : State) (rest : List HostMove), s.moves = .assertRst :: .releaseRst :: rest →
    ∃ t t', step s = .next t ∧ step t = .next t' ∧
      t.status = 0 ∧ t.errcmd = 0 ∧ t.flight = none ∧ t.cmdReady = false ∧ t.cfg = s.cfg ∧
      t'.status = 0 ∧ t'.errcmd = 0 ∧ t'.Idle ∧ t'.Inv ∧ t'.cfg = s.cfg ∧ t'.moves = rest

/-! ### The handshake and the step (spec/10_state.md, spec/20_memory.md) -/

/-- R33, R49, R50: `cmd_ready` is 1 exactly when BUSY, bit 0, is 0, ERR, bit 1, is 0 and `rst` is not asserted; and a word presented
to a ready engine is accepted: BUSY is 1, the word is in flight, and every port but `status` still reads as before. What a port reads
is in ReadsHaveNoSideEffect. -/
def Obligations.AcceptanceChangesBusyOnly : Prop :=
  (∀ s : State, s.cmdReady = true ↔ s.status.getLsbD 0 = false ∧ s.status.getLsbD 1 = false ∧ s.rst = false) ∧
  (∀ (s : State) (w : CmdWord) (rest : List HostMove), s.cmdReady = true → s.moves = .present w :: rest →
    ∃ t, step s = .next t ∧ t = { s with status := t.status, flight := some w, moves := rest } ∧
      t.status = s.status ||| 1#8 ∧ t.cmdReady = false ∧ ∀ p : ReadPort, p ≠ .status → t.readPort p = s.readPort p)

/-- R33, R187: a word presented while `cmd_ready` is 0 is not accepted and has no effect: the step is the one the engine takes
without it, and the word stays the host's to present again (that the engine takes its step meanwhile: log 8). -/
def Obligations.PresentedWordWaits : Prop :=
  ∀ (s : State) (w : CmdWord) (rest : List HostMove), s.cmdReady = false → s.moves = .present w :: rest →
    step s = onNext (fun t => { t with moves := .present w :: rest }) (step { s with moves := [] })

/-- R33, R46, R50: a read of a port changes no state, and returns the element as it is at that instant, the whole element named by
the index; the outputs `busy` and `err` are bits 0 and 1 of `STATUS`. -/
def Obligations.ReadsHaveNoSideEffect : Prop :=
  (∀ (s : State) (p : ReadPort) (rest : List HostMove), s.moves = .read p :: rest →
    step s = .next { s with moves := rest }) ∧
  (∀ (s : State) (k : BitVec 5), s.blkByte k = s.blk[k.toNat] ∧ (s.readPort (.blk k)).toNat = s.blk[k.toNat].toNat) ∧
  (∀ (s : State) (k : BitVec 5), s.digByte k = s.dig[k.toNat] ∧ (s.readPort (.dig k)).toNat = s.dig[k.toNat].toNat) ∧
  (∀ (s : State) (k : BitVec 6), s.hexByte k = s.hex[k.toNat] ∧ (s.readPort (.hex k)).toNat = s.hex[k.toNat].toNat) ∧
  (∀ (s : State) (k : BitVec 3), s.ctxWord k = s.ctx[k.toNat] ∧ s.readPort (.ctx k) = s.ctx[k.toNat]) ∧
  (∀ s : State, (s.readPort .status).toNat = s.status.toNat ∧ (s.readPort .errcmd).toNat = s.errcmd.toNat ∧
    s.busy = s.status.getLsbD 0 ∧ s.err = s.status.getLsbD 1)

/-- A step runs the decoded command: when the accepted word decodes to i, the engine's turn executes i, and the command is then
no longer in flight and BUSY is 0 (R25, R49, R66). Acceptance and completion as two steps, and `EngineNext`, are the model's form
(log 2, 8). -/
def Obligations.StepRunsDecodedCommand : Prop :=
  ∀ (s : State) (w : CmdWord) (i : Instr) (rest : List HostMove),
    s.flight = some w → decode w = .ok i → s.EngineNext rest →
    step s = onNext (fun t => { t with status := t.status &&& 0xFE#8, flight := none }) (exec i { s with moves := rest })

/-- The invariant of the control registers (R25, R26, R161, R163, R164, R180) is kept by every step. -/
def Obligations.StepKeepsInvariant : Prop :=
  ∀ s t : State, s.Inv → step s = .next t → t.Inv

/-- R27: no step changes the wiring parameters, and no legal or illegal command does. -/
def Obligations.WiringNeverChanges : Prop :=
  (∀ s t : State, step s = .next t → t.cfg = s.cfg) ∧ (∀ (i : Instr) (s t : State), exec i s = .next t → t.cfg = s.cfg)

/-- R20, R22, R28 to R30: outside hardware reset, `CTX` is changed by INIT and COMPRESS only, `BLK` by LDB and PAD, `DIG` by
EXTRACT, `HEX` by HEXENC, and only when the command completes. -/
def Obligations.RegistersHaveTheirWriters : Prop :=
  ∀ s t : State, step s = .next t →
    (∃ rest, s.moves = .assertRst :: rest ∨ s.moves = .releaseRst :: rest) ∨
    ((t.ctx ≠ s.ctx → ∃ w, s.flight = some w ∧ (decode w = .ok .init ∨ decode w = .ok .compress)) ∧
     (t.blk ≠ s.blk → ∃ w, s.flight = some w ∧
       ((∃ len, decode w = .ok (.pad len)) ∨ ∃ idx data, decode w = .ok (.ldb idx data))) ∧
     (t.dig ≠ s.dig → ∃ w, s.flight = some w ∧ decode w = .ok .extract) ∧
     (t.hex ≠ s.hex → ∃ w, s.flight = some w ∧ decode w = .ok .hexenc))

/-! ### Whole runs (R49, R192) and whole messages (spec/45_message_sequence.md) -/

/-- R49: a sequence of legal words, all accepted, has exactly one result, the composition of its commands in acceptance order:
two steps a command, and what the host does after them is still to come (two steps, and `wait`: log 2, 8). -/
def Obligations.RunIsComposition : Prop :=
  ∀ (is : List Instr) (s : State) (rest : List HostMove), (∀ i ∈ is, i.WellFormed) → s.Idle →
    ∃ t, runCmds is s = .next t ∧
      core.run (2 * is.length) { s with moves := is.flatMap (fun i => [.present (encode i), .wait]) ++ rest } =
        .next { t with moves := rest }

/-- R190, R192: a run of legal words, presented one after another to an idle engine with `STATUS` 0x00, ends normally
(two steps a command: log 8; what counts as a normal end: log 19). -/
def Obligations.LegalRunEndsNormally : Prop :=
  ∀ (is : List Instr) (s : State), (∀ i ∈ is, i.WellFormed) → s.Idle → s.status = 0 → s.moves = presentAll is →
    ∃ t, core.run (2 * is.length) s = .next t ∧ t.EndedNormally

/-- R164, R192: the words after a faulting one are never accepted: the run stops in the faulted state, with the faulting
word recorded and the data registers as they were (`Fault.faulted`: log 9). -/
def Obligations.RunStopsAfterFault : Prop :=
  ∀ (s : State) (w w' : CmdWord) (c : Cause) (rest : List HostMove), s.Idle → decode w = .error c →
    s.moves = .present w :: .present w' :: rest →
    (∃ t, core.run 2 s = .next t ∧ t.errcmd = w ∧ t.err = true ∧ statusCause t.status = causeCode c ∧
      t.ctx = s.ctx ∧ t.blk = s.blk ∧ t.dig = s.dig ∧ t.hex = s.hex ∧ t.moves = .present w' :: rest) ∧
    ∀ n : Nat, core.run (n + 3) s = .fault .faulted

/-- R150, R156: after the commands of `HASH m`, `DIG` and `HEX` hold the digest of m and its hex string, whatever the engine
held before and whichever full chunks the host pads. -/
def Obligations.HashGivesDigest : Prop :=
  ∀ (padFull : Nat → Bool) (m : List Byte) (s : State),
    ∃ t, runCmds (hashCmds padFull m) s = .next t ∧ t.dig = lvha256 s.cfg m ∧ t.hex = lvha256hex s.cfg m ∧
      t.ctx = accumulate s.cfg s.cfg.iv (blocks m)

/-- R158: the sequence of a second message without its INIT continues the fold from the accumulator it finds. -/
def Obligations.ChainingContinuesTheFold : Prop :=
  ∀ (padFull : Nat → Bool) (m : List Byte) (s : State),
    ∃ t, runCmds (bodyCmds padFull m ++ finishCmds) s = .next t ∧
      t.dig = storeWords (accumulate s.cfg s.ctx (blocks m))

/-- R155: `HASH m` has one COMPRESS when the message is empty and ceil(N / 32) otherwise; for exactly 32 k bytes, k. -/
def Obligations.BlockCount : Prop :=
  ∀ (padFull : Nat → Bool) (m : List Byte),
    (hashCmds padFull m).count .compress = (if m.length = 0 then 1 else (m.length + 31) / 32) ∧
    (blocks m).length = (hashCmds padFull m).count .compress ∧
    (∀ k, 0 < k → m.length = 32 * k → (hashCmds padFull m).count .compress = k)

/-- R151 to R153, R156: the empty message is the padded empty chunk, and otherwise byte k of block b is byte 32 b + k of the
message, the marker directly after its last byte if that ends a short chunk, and zero after that. -/
def Obligations.BlocksOfMessage : Prop :=
  ∀ (m : List Byte) (b : Nat) (k : Fin 32) (h : b < (blocks m).length),
    ((blocks m)[b])[k] =
      (if h' : 32 * b + k.val < m.length then m[32 * b + k.val]
       else if 32 * b + k.val = m.length then 0x80#8 else 0x00#8)

/-- R158: when the length of m1 is a positive multiple of 32 and m2 is not empty, the blocks of their concatenation are the
blocks of m1 and then those of m2. -/
def Obligations.BlocksOfConcatenation : Prop :=
  ∀ m1 m2 : List Byte, 0 < m1.length → m1.length % 32 = 0 → m2 ≠ [] → blocks (m1 ++ m2) = blocks m1 ++ blocks m2

/-- R189: for every configuration, a message whose length is 0 or no multiple of 32 and the message that spells out its padding
have the same blocks and so the same digest; and they are different messages. -/
def Obligations.PaddingAmbiguity : Prop :=
  ∀ (cfg : Cfg) (m : List Byte), m.length = 0 ∨ m.length % 32 ≠ 0 →
    blocks (spelledOut m) = blocks m ∧ lvha256 cfg (spelledOut m) = lvha256 cfg m ∧ spelledOut m ≠ m ∧
    0 < (spelledOut m).length ∧ (spelledOut m).length % 32 = 0
end

