-- ==== Sys2Proof/Laws/Flags.lean ====
section
/-! SUPPORT. What each write of `STATUS` does to each of its fields (R25, R163), and the output ports that copy them. -/

namespace Sys2Proof.Machine

/-! ### Setting BUSY -/

@[simp] theorem statusBusy_setBusy : ∀ st, statusBusy (statusSetBusy st) = true := by decide
@[simp] theorem statusErr_setBusy : ∀ st, statusErr (statusSetBusy st) = statusErr st := by decide
@[simp] theorem statusCause_setBusy : ∀ st, statusCause (statusSetBusy st) = statusCause st := by decide
@[simp] theorem statusReserved_setBusy : ∀ st, statusReserved (statusSetBusy st) = statusReserved st := by decide

/-! ### Clearing BUSY -/

@[simp] theorem statusBusy_clearBusy : ∀ st, statusBusy (statusClearBusy st) = false := by decide
@[simp] theorem statusErr_clearBusy : ∀ st, statusErr (statusClearBusy st) = statusErr st := by decide
@[simp] theorem statusCause_clearBusy : ∀ st, statusCause (statusClearBusy st) = statusCause st := by decide
@[simp] theorem statusReserved_clearBusy : ∀ st, statusReserved (statusClearBusy st) = statusReserved st := by decide

/-- A command that was accepted by an idle engine and has completed leaves `STATUS` as it found it. -/
theorem statusClearBusy_setBusy : ∀ st, statusBusy st = false → statusClearBusy (statusSetBusy st) = st := by decide

/-- Clearing BUSY where it is 0 changes nothing. -/
theorem statusClearBusy_idle : ∀ st, statusBusy st = false → statusClearBusy st = st := by decide

/-! ### Fault entry -/

@[simp] theorem statusBusy_fault (st : BitVec 8) (c : Cause) : statusBusy (statusFault st c) = false := by
  revert st; cases c <;> decide
@[simp] theorem statusErr_fault (st : BitVec 8) (c : Cause) : statusErr (statusFault st c) = true := by
  revert st; cases c <;> decide
@[simp] theorem statusCause_fault (st : BitVec 8) (c : Cause) : statusCause (statusFault st c) = causeCode c := by
  revert st; cases c <;> decide
@[simp] theorem statusReserved_fault (st : BitVec 8) (c : Cause) :
    statusReserved (statusFault st c) = statusReserved st := by
  revert st; cases c <;> decide

/-- `STATUS` after a fault, as a number (R25, R163). -/
theorem statusFault_toNat (st : BitVec 8) (c : Cause) :
    (statusFault st c).toNat = 32 * (st.toNat / 32) + 4 * (causeCode c).toNat + 2 := by
  revert st; cases c <;> decide

/-- A fault has already cleared BUSY. -/
@[simp] theorem statusClearBusy_fault (st : BitVec 8) (c : Cause) : statusClearBusy (statusFault st c) = statusFault st c :=
  statusClearBusy_idle _ (statusBusy_fault st c)

/-- No cause has the code 0 (R161: 0 is "no fault"). -/
@[simp] theorem causeCode_ne_zero (c : Cause) : causeCode c ≠ 0 := by cases c <;> decide

/-! ### The reset value -/

@[simp] theorem statusBusy_zero : statusBusy 0x00#8 = false := by decide
@[simp] theorem statusErr_zero : statusErr 0x00#8 = false := by decide
@[simp] theorem statusCause_zero : statusCause 0x00#8 = 0 := by decide
@[simp] theorem statusReserved_zero : statusReserved 0x00#8 = 0 := by decide

/-- A ready engine (R33): BUSY and ERR are 0 and `rst` is released. -/
theorem State.cmdReady_iff (s : State) : s.cmdReady = true ↔ s.busy = false ∧ s.err = false ∧ s.rst = false := by
  simp [State.cmdReady, and_assoc]

end Sys2Proof.Machine
end

