-- ==== Sys2Proof/Laws/Operands.lean ====
section
/-! SUPPORT. One lemma per vector that a definition builds, giving an element of it, so that no proof unfolds the vector: the byte
orders (R41 to R43), PAD's block (R87), the fold-back (R124), and one byte after LDB (R85). -/

namespace Sys2Proof.Machine

@[simp] theorem getElem_loadWords (blk : Block) (n : Nat) (h : n < 8) : (loadWords blk)[n] =
    wordOfBytesLE blk[4 * n] blk[4 * n + 1] blk[4 * n + 2] blk[4 * n + 3] := by
  simp [loadWords]

@[simp] theorem getElem_storeWords (ctx : Words) (k : Nat) (h : k < 32) :
    (storeWords ctx)[k] = byteOfWordBE ctx[k / 4] (k % 4) := by
  simp [storeWords]

@[simp] theorem getElem_hexOfDigest (dig : Digest) (k : Nat) (h : k < 64) : (hexOfDigest dig)[k] =
    if k % 2 = 0 then hexchar (dig[k / 2].extractLsb' 4 4) else hexchar (dig[k / 2].extractLsb' 0 4) := by
  simp [hexOfDigest]

theorem getElem_foldBack (ctx wk : Words) (n : Nat) (h : n < 8) :
    (foldBack ctx wk)[n] = foldWord ⟨n, h⟩ ctx[n] wk[n] := by
  simp [foldBack]

@[simp] theorem getElem_zeroFill (blk : Block) (L k : Nat) (h : k < 32) :
    (zeroFill blk L)[k] = if L ≤ k then 0x00#8 else blk[k] := by
  simp [zeroFill]

/-- The block PAD leaves, byte by byte. -/
theorem getElem_padBlock (blk : Block) (L k : Nat) (h : k < 32) :
    (padBlock blk L)[k] =
      if L < 32 then (if k < L then blk[k] else if k = L then 0x80#8 else 0x00#8) else blk[k] := by
  unfold padBlock
  split
  case isTrue hL =>
    rw [Vector.getElem_set, getElem_zeroFill]
    rcases lt_trichotomy k L with hk | hk | hk
    · simp [hk, hk.not_ge, hk.ne']
    · simp [hk]
    · simp [hk.le, hk.ne, hk.ne', hk.not_gt]
  case isFalse hL => rfl

/-- The bytes of `BLK` after a write of one of them. -/
theorem getElem_set_blk (blk : Block) (idx k : BitVec 5) (data : Byte) :
    (blk.set idx.toNat data idx.isLt)[k.toNat]'k.isLt = if k = idx then data else blk[k.toNat]'k.isLt := by
  rw [Vector.getElem_set]
  by_cases h : k = idx
  · simp [h]
  · have : idx.toNat ≠ k.toNat := fun e => h (BitVec.eq_of_toNat_eq e.symm)
    simp [h, this]

/-- The four bytes of a word, most significant first. -/
@[simp] theorem byteOfWordBE_zero (x : Word) : byteOfWordBE x 0 = x.extractLsb' 24 8 := rfl
@[simp] theorem byteOfWordBE_one (x : Word) : byteOfWordBE x 1 = x.extractLsb' 16 8 := rfl
@[simp] theorem byteOfWordBE_two (x : Word) : byteOfWordBE x 2 = x.extractLsb' 8 8 := rfl
@[simp] theorem byteOfWordBE_three (x : Word) : byteOfWordBE x 3 = x.extractLsb' 0 8 := rfl

/-! ### Loops over the eight words -/

/-- Running a loop over A..H one target further: the first t + 1 targets are the first t and then t. -/
theorem foldl_take_succ {α : Type} (f : α → Fin 8 → α) (a : α) (t : Fin 8) :
    (idx8.take (t.val + 1)).foldl f a = f ((idx8.take t.val).foldl f a) t := by
  have h : idx8.take (t.val + 1) = idx8.take t.val ++ [t] := by revert t; decide
  rw [h, List.foldl_append]
  rfl

/-- The whole loop is the loop over the first eight targets. -/
theorem foldl_idx8 {α : Type} (f : α → Fin 8 → α) (a : α) : idx8.foldl f a = (idx8.take 8).foldl f a := rfl

/-- A loop that writes word t at target t, in order: after the first n targets a word below n holds what was written when it
was the target, the others what they held before (R111, R117). -/
theorem getElem_foldl_set {α : Type} (f : α → Fin 8 → α) (w : α → Words) (g : α → Fin 8 → Word)
    (hf : ∀ a t, w (f a t) = (w a).set t.val (g a t) t.isLt) (a : α) (n : Nat) (hn : n ≤ 8) (k : Fin 8) :
    (w ((idx8.take n).foldl f a))[k] = if k.val < n then g ((idx8.take k.val).foldl f a) k else (w a)[k] := by
  induction n with
  | zero => simp
  | succ n ih =>
    have h := foldl_take_succ f a ⟨n, hn⟩
    have ih := ih (by omega)
    simp only at h
    rw [h, hf]
    simp only [Fin.getElem_fin] at ih ⊢
    rw [Vector.getElem_set]
    by_cases hk : n = k.val
    · have : (⟨n, hn⟩ : Fin 8) = k := Fin.ext hk
      simp [← hk, this]
    · rw [if_neg hk, ih]
      have : k.val < n ↔ k.val < n + 1 := by omega
      simp [this]

end Sys2Proof.Machine
end

