-- ==== Sys2Proof/Laws/State.lean ====
section
/-! SUPPORT. One lemma per field per write of Machine/Ops.lean, so that no later proof unfolds a record update. -/

namespace Sys2Proof.Machine

variable (s : State)

/-! ### setCtx -/

@[simp] theorem State.setCtx_ctx (v : Words) : (s.setCtx v).ctx = v := rfl
@[simp] theorem State.setCtx_blk (v : Words) : (s.setCtx v).blk = s.blk := rfl
@[simp] theorem State.setCtx_dig (v : Words) : (s.setCtx v).dig = s.dig := rfl
@[simp] theorem State.setCtx_hex (v : Words) : (s.setCtx v).hex = s.hex := rfl
@[simp] theorem State.setCtx_status (v : Words) : (s.setCtx v).status = s.status := rfl
@[simp] theorem State.setCtx_errcmd (v : Words) : (s.setCtx v).errcmd = s.errcmd := rfl
@[simp] theorem State.setCtx_flight (v : Words) : (s.setCtx v).flight = s.flight := rfl
@[simp] theorem State.setCtx_rst (v : Words) : (s.setCtx v).rst = s.rst := rfl
@[simp] theorem State.setCtx_cfg (v : Words) : (s.setCtx v).cfg = s.cfg := rfl
@[simp] theorem State.setCtx_moves (v : Words) : (s.setCtx v).moves = s.moves := rfl
@[simp] theorem State.setCtx_draws (v : Words) : (s.setCtx v).draws = s.draws := rfl
@[simp] theorem State.setCtx_self : s.setCtx s.ctx = s := rfl
@[simp] theorem State.setCtx_setCtx (v v' : Words) : (s.setCtx v).setCtx v' = s.setCtx v' := rfl

/-! ### setBlk -/

@[simp] theorem State.setBlk_ctx (v : Block) : (s.setBlk v).ctx = s.ctx := rfl
@[simp] theorem State.setBlk_blk (v : Block) : (s.setBlk v).blk = v := rfl
@[simp] theorem State.setBlk_dig (v : Block) : (s.setBlk v).dig = s.dig := rfl
@[simp] theorem State.setBlk_hex (v : Block) : (s.setBlk v).hex = s.hex := rfl
@[simp] theorem State.setBlk_status (v : Block) : (s.setBlk v).status = s.status := rfl
@[simp] theorem State.setBlk_errcmd (v : Block) : (s.setBlk v).errcmd = s.errcmd := rfl
@[simp] theorem State.setBlk_flight (v : Block) : (s.setBlk v).flight = s.flight := rfl
@[simp] theorem State.setBlk_rst (v : Block) : (s.setBlk v).rst = s.rst := rfl
@[simp] theorem State.setBlk_cfg (v : Block) : (s.setBlk v).cfg = s.cfg := rfl
@[simp] theorem State.setBlk_moves (v : Block) : (s.setBlk v).moves = s.moves := rfl
@[simp] theorem State.setBlk_draws (v : Block) : (s.setBlk v).draws = s.draws := rfl
@[simp] theorem State.setBlk_self : s.setBlk s.blk = s := rfl
@[simp] theorem State.setBlk_setBlk (v v' : Block) : (s.setBlk v).setBlk v' = s.setBlk v' := rfl

/-! ### setDig -/

@[simp] theorem State.setDig_ctx (v : Digest) : (s.setDig v).ctx = s.ctx := rfl
@[simp] theorem State.setDig_blk (v : Digest) : (s.setDig v).blk = s.blk := rfl
@[simp] theorem State.setDig_dig (v : Digest) : (s.setDig v).dig = v := rfl
@[simp] theorem State.setDig_hex (v : Digest) : (s.setDig v).hex = s.hex := rfl
@[simp] theorem State.setDig_status (v : Digest) : (s.setDig v).status = s.status := rfl
@[simp] theorem State.setDig_errcmd (v : Digest) : (s.setDig v).errcmd = s.errcmd := rfl
@[simp] theorem State.setDig_flight (v : Digest) : (s.setDig v).flight = s.flight := rfl
@[simp] theorem State.setDig_rst (v : Digest) : (s.setDig v).rst = s.rst := rfl
@[simp] theorem State.setDig_cfg (v : Digest) : (s.setDig v).cfg = s.cfg := rfl
@[simp] theorem State.setDig_moves (v : Digest) : (s.setDig v).moves = s.moves := rfl
@[simp] theorem State.setDig_draws (v : Digest) : (s.setDig v).draws = s.draws := rfl
@[simp] theorem State.setDig_self : s.setDig s.dig = s := rfl
@[simp] theorem State.setDig_setDig (v v' : Digest) : (s.setDig v).setDig v' = s.setDig v' := rfl

/-! ### setHex -/

@[simp] theorem State.setHex_ctx (v : HexString) : (s.setHex v).ctx = s.ctx := rfl
@[simp] theorem State.setHex_blk (v : HexString) : (s.setHex v).blk = s.blk := rfl
@[simp] theorem State.setHex_dig (v : HexString) : (s.setHex v).dig = s.dig := rfl
@[simp] theorem State.setHex_hex (v : HexString) : (s.setHex v).hex = v := rfl
@[simp] theorem State.setHex_status (v : HexString) : (s.setHex v).status = s.status := rfl
@[simp] theorem State.setHex_errcmd (v : HexString) : (s.setHex v).errcmd = s.errcmd := rfl
@[simp] theorem State.setHex_flight (v : HexString) : (s.setHex v).flight = s.flight := rfl
@[simp] theorem State.setHex_rst (v : HexString) : (s.setHex v).rst = s.rst := rfl
@[simp] theorem State.setHex_cfg (v : HexString) : (s.setHex v).cfg = s.cfg := rfl
@[simp] theorem State.setHex_moves (v : HexString) : (s.setHex v).moves = s.moves := rfl
@[simp] theorem State.setHex_draws (v : HexString) : (s.setHex v).draws = s.draws := rfl
@[simp] theorem State.setHex_self : s.setHex s.hex = s := rfl
@[simp] theorem State.setHex_setHex (v v' : HexString) : (s.setHex v).setHex v' = s.setHex v' := rfl

/-! ### setStatus -/

@[simp] theorem State.setStatus_ctx (v : BitVec 8) : (s.setStatus v).ctx = s.ctx := rfl
@[simp] theorem State.setStatus_blk (v : BitVec 8) : (s.setStatus v).blk = s.blk := rfl
@[simp] theorem State.setStatus_dig (v : BitVec 8) : (s.setStatus v).dig = s.dig := rfl
@[simp] theorem State.setStatus_hex (v : BitVec 8) : (s.setStatus v).hex = s.hex := rfl
@[simp] theorem State.setStatus_status (v : BitVec 8) : (s.setStatus v).status = v := rfl
@[simp] theorem State.setStatus_errcmd (v : BitVec 8) : (s.setStatus v).errcmd = s.errcmd := rfl
@[simp] theorem State.setStatus_flight (v : BitVec 8) : (s.setStatus v).flight = s.flight := rfl
@[simp] theorem State.setStatus_rst (v : BitVec 8) : (s.setStatus v).rst = s.rst := rfl
@[simp] theorem State.setStatus_cfg (v : BitVec 8) : (s.setStatus v).cfg = s.cfg := rfl
@[simp] theorem State.setStatus_moves (v : BitVec 8) : (s.setStatus v).moves = s.moves := rfl
@[simp] theorem State.setStatus_draws (v : BitVec 8) : (s.setStatus v).draws = s.draws := rfl
@[simp] theorem State.setStatus_self : s.setStatus s.status = s := rfl
@[simp] theorem State.setStatus_setStatus (v v' : BitVec 8) : (s.setStatus v).setStatus v' = s.setStatus v' := rfl

/-! ### setErrcmd -/

@[simp] theorem State.setErrcmd_ctx (v : CmdWord) : (s.setErrcmd v).ctx = s.ctx := rfl
@[simp] theorem State.setErrcmd_blk (v : CmdWord) : (s.setErrcmd v).blk = s.blk := rfl
@[simp] theorem State.setErrcmd_dig (v : CmdWord) : (s.setErrcmd v).dig = s.dig := rfl
@[simp] theorem State.setErrcmd_hex (v : CmdWord) : (s.setErrcmd v).hex = s.hex := rfl
@[simp] theorem State.setErrcmd_status (v : CmdWord) : (s.setErrcmd v).status = s.status := rfl
@[simp] theorem State.setErrcmd_errcmd (v : CmdWord) : (s.setErrcmd v).errcmd = v := rfl
@[simp] theorem State.setErrcmd_flight (v : CmdWord) : (s.setErrcmd v).flight = s.flight := rfl
@[simp] theorem State.setErrcmd_rst (v : CmdWord) : (s.setErrcmd v).rst = s.rst := rfl
@[simp] theorem State.setErrcmd_cfg (v : CmdWord) : (s.setErrcmd v).cfg = s.cfg := rfl
@[simp] theorem State.setErrcmd_moves (v : CmdWord) : (s.setErrcmd v).moves = s.moves := rfl
@[simp] theorem State.setErrcmd_draws (v : CmdWord) : (s.setErrcmd v).draws = s.draws := rfl
@[simp] theorem State.setErrcmd_self : s.setErrcmd s.errcmd = s := rfl
@[simp] theorem State.setErrcmd_setErrcmd (v v' : CmdWord) : (s.setErrcmd v).setErrcmd v' = s.setErrcmd v' := rfl

/-! ### setFlight -/

@[simp] theorem State.setFlight_ctx (v : Option CmdWord) : (s.setFlight v).ctx = s.ctx := rfl
@[simp] theorem State.setFlight_blk (v : Option CmdWord) : (s.setFlight v).blk = s.blk := rfl
@[simp] theorem State.setFlight_dig (v : Option CmdWord) : (s.setFlight v).dig = s.dig := rfl
@[simp] theorem State.setFlight_hex (v : Option CmdWord) : (s.setFlight v).hex = s.hex := rfl
@[simp] theorem State.setFlight_status (v : Option CmdWord) : (s.setFlight v).status = s.status := rfl
@[simp] theorem State.setFlight_errcmd (v : Option CmdWord) : (s.setFlight v).errcmd = s.errcmd := rfl
@[simp] theorem State.setFlight_flight (v : Option CmdWord) : (s.setFlight v).flight = v := rfl
@[simp] theorem State.setFlight_rst (v : Option CmdWord) : (s.setFlight v).rst = s.rst := rfl
@[simp] theorem State.setFlight_cfg (v : Option CmdWord) : (s.setFlight v).cfg = s.cfg := rfl
@[simp] theorem State.setFlight_moves (v : Option CmdWord) : (s.setFlight v).moves = s.moves := rfl
@[simp] theorem State.setFlight_draws (v : Option CmdWord) : (s.setFlight v).draws = s.draws := rfl
@[simp] theorem State.setFlight_self : s.setFlight s.flight = s := rfl
@[simp] theorem State.setFlight_setFlight (v v' : Option CmdWord) : (s.setFlight v).setFlight v' = s.setFlight v' := rfl

/-! ### setRst -/

@[simp] theorem State.setRst_ctx (v : Bool) : (s.setRst v).ctx = s.ctx := rfl
@[simp] theorem State.setRst_blk (v : Bool) : (s.setRst v).blk = s.blk := rfl
@[simp] theorem State.setRst_dig (v : Bool) : (s.setRst v).dig = s.dig := rfl
@[simp] theorem State.setRst_hex (v : Bool) : (s.setRst v).hex = s.hex := rfl
@[simp] theorem State.setRst_status (v : Bool) : (s.setRst v).status = s.status := rfl
@[simp] theorem State.setRst_errcmd (v : Bool) : (s.setRst v).errcmd = s.errcmd := rfl
@[simp] theorem State.setRst_flight (v : Bool) : (s.setRst v).flight = s.flight := rfl
@[simp] theorem State.setRst_rst (v : Bool) : (s.setRst v).rst = v := rfl
@[simp] theorem State.setRst_cfg (v : Bool) : (s.setRst v).cfg = s.cfg := rfl
@[simp] theorem State.setRst_moves (v : Bool) : (s.setRst v).moves = s.moves := rfl
@[simp] theorem State.setRst_draws (v : Bool) : (s.setRst v).draws = s.draws := rfl
@[simp] theorem State.setRst_self : s.setRst s.rst = s := rfl
@[simp] theorem State.setRst_setRst (v v' : Bool) : (s.setRst v).setRst v' = s.setRst v' := rfl

/-! ### setMoves -/

@[simp] theorem State.setMoves_ctx (v : List HostMove) : (s.setMoves v).ctx = s.ctx := rfl
@[simp] theorem State.setMoves_blk (v : List HostMove) : (s.setMoves v).blk = s.blk := rfl
@[simp] theorem State.setMoves_dig (v : List HostMove) : (s.setMoves v).dig = s.dig := rfl
@[simp] theorem State.setMoves_hex (v : List HostMove) : (s.setMoves v).hex = s.hex := rfl
@[simp] theorem State.setMoves_status (v : List HostMove) : (s.setMoves v).status = s.status := rfl
@[simp] theorem State.setMoves_errcmd (v : List HostMove) : (s.setMoves v).errcmd = s.errcmd := rfl
@[simp] theorem State.setMoves_flight (v : List HostMove) : (s.setMoves v).flight = s.flight := rfl
@[simp] theorem State.setMoves_rst (v : List HostMove) : (s.setMoves v).rst = s.rst := rfl
@[simp] theorem State.setMoves_cfg (v : List HostMove) : (s.setMoves v).cfg = s.cfg := rfl
@[simp] theorem State.setMoves_moves (v : List HostMove) : (s.setMoves v).moves = v := rfl
@[simp] theorem State.setMoves_draws (v : List HostMove) : (s.setMoves v).draws = s.draws := rfl
@[simp] theorem State.setMoves_self : s.setMoves s.moves = s := rfl
@[simp] theorem State.setMoves_setMoves (v v' : List HostMove) : (s.setMoves v).setMoves v' = s.setMoves v' := rfl

/-! ### writeBlk -/

@[simp] theorem State.writeBlk_ctx (idx : BitVec 5) (data : Byte) : (s.writeBlk idx data).ctx = s.ctx := rfl
@[simp] theorem State.writeBlk_blk (idx : BitVec 5) (data : Byte) : (s.writeBlk idx data).blk = s.blk.set idx.toNat data idx.isLt := rfl
@[simp] theorem State.writeBlk_dig (idx : BitVec 5) (data : Byte) : (s.writeBlk idx data).dig = s.dig := rfl
@[simp] theorem State.writeBlk_hex (idx : BitVec 5) (data : Byte) : (s.writeBlk idx data).hex = s.hex := rfl
@[simp] theorem State.writeBlk_status (idx : BitVec 5) (data : Byte) : (s.writeBlk idx data).status = s.status := rfl
@[simp] theorem State.writeBlk_errcmd (idx : BitVec 5) (data : Byte) : (s.writeBlk idx data).errcmd = s.errcmd := rfl
@[simp] theorem State.writeBlk_flight (idx : BitVec 5) (data : Byte) : (s.writeBlk idx data).flight = s.flight := rfl
@[simp] theorem State.writeBlk_rst (idx : BitVec 5) (data : Byte) : (s.writeBlk idx data).rst = s.rst := rfl
@[simp] theorem State.writeBlk_cfg (idx : BitVec 5) (data : Byte) : (s.writeBlk idx data).cfg = s.cfg := rfl
@[simp] theorem State.writeBlk_moves (idx : BitVec 5) (data : Byte) : (s.writeBlk idx data).moves = s.moves := rfl
@[simp] theorem State.writeBlk_draws (idx : BitVec 5) (data : Byte) : (s.writeBlk idx data).draws = s.draws := rfl

/-! ### accept -/

@[simp] theorem State.accept_ctx (w : CmdWord) : (s.accept w).ctx = s.ctx := rfl
@[simp] theorem State.accept_blk (w : CmdWord) : (s.accept w).blk = s.blk := rfl
@[simp] theorem State.accept_dig (w : CmdWord) : (s.accept w).dig = s.dig := rfl
@[simp] theorem State.accept_hex (w : CmdWord) : (s.accept w).hex = s.hex := rfl
@[simp] theorem State.accept_status (w : CmdWord) : (s.accept w).status = statusSetBusy s.status := rfl
@[simp] theorem State.accept_errcmd (w : CmdWord) : (s.accept w).errcmd = s.errcmd := rfl
@[simp] theorem State.accept_flight (w : CmdWord) : (s.accept w).flight = some w := rfl
@[simp] theorem State.accept_rst (w : CmdWord) : (s.accept w).rst = s.rst := rfl
@[simp] theorem State.accept_cfg (w : CmdWord) : (s.accept w).cfg = s.cfg := rfl
@[simp] theorem State.accept_moves (w : CmdWord) : (s.accept w).moves = s.moves := rfl
@[simp] theorem State.accept_draws (w : CmdWord) : (s.accept w).draws = s.draws := rfl

/-! ### retire -/

@[simp] theorem State.retire_ctx : (s.retire).ctx = s.ctx := rfl
@[simp] theorem State.retire_blk : (s.retire).blk = s.blk := rfl
@[simp] theorem State.retire_dig : (s.retire).dig = s.dig := rfl
@[simp] theorem State.retire_hex : (s.retire).hex = s.hex := rfl
@[simp] theorem State.retire_status : (s.retire).status = statusClearBusy s.status := rfl
@[simp] theorem State.retire_errcmd : (s.retire).errcmd = s.errcmd := rfl
@[simp] theorem State.retire_flight : (s.retire).flight = none := rfl
@[simp] theorem State.retire_rst : (s.retire).rst = s.rst := rfl
@[simp] theorem State.retire_cfg : (s.retire).cfg = s.cfg := rfl
@[simp] theorem State.retire_moves : (s.retire).moves = s.moves := rfl
@[simp] theorem State.retire_draws : (s.retire).draws = s.draws := rfl

/-! ### raiseFault -/

@[simp] theorem State.raiseFault_ctx (c : Cause) (w : CmdWord) : (s.raiseFault c w).ctx = s.ctx := rfl
@[simp] theorem State.raiseFault_blk (c : Cause) (w : CmdWord) : (s.raiseFault c w).blk = s.blk := rfl
@[simp] theorem State.raiseFault_dig (c : Cause) (w : CmdWord) : (s.raiseFault c w).dig = s.dig := rfl
@[simp] theorem State.raiseFault_hex (c : Cause) (w : CmdWord) : (s.raiseFault c w).hex = s.hex := rfl
@[simp] theorem State.raiseFault_status (c : Cause) (w : CmdWord) : (s.raiseFault c w).status = statusFault s.status c := rfl
@[simp] theorem State.raiseFault_errcmd (c : Cause) (w : CmdWord) : (s.raiseFault c w).errcmd = w := rfl
@[simp] theorem State.raiseFault_flight (c : Cause) (w : CmdWord) : (s.raiseFault c w).flight = s.flight := rfl
@[simp] theorem State.raiseFault_rst (c : Cause) (w : CmdWord) : (s.raiseFault c w).rst = s.rst := rfl
@[simp] theorem State.raiseFault_cfg (c : Cause) (w : CmdWord) : (s.raiseFault c w).cfg = s.cfg := rfl
@[simp] theorem State.raiseFault_moves (c : Cause) (w : CmdWord) : (s.raiseFault c w).moves = s.moves := rfl
@[simp] theorem State.raiseFault_draws (c : Cause) (w : CmdWord) : (s.raiseFault c w).draws = s.draws := rfl

/-! ### drawData -/

@[simp] theorem State.drawData_ctx : (s.drawData).ctx = Config.resetCtx s.draws := rfl
@[simp] theorem State.drawData_blk : (s.drawData).blk = Config.resetBlk s.draws := rfl
@[simp] theorem State.drawData_dig : (s.drawData).dig = Config.resetDig s.draws := rfl
@[simp] theorem State.drawData_hex : (s.drawData).hex = Config.resetHex s.draws := rfl
@[simp] theorem State.drawData_status : (s.drawData).status = s.status := rfl
@[simp] theorem State.drawData_errcmd : (s.drawData).errcmd = s.errcmd := rfl
@[simp] theorem State.drawData_flight : (s.drawData).flight = s.flight := rfl
@[simp] theorem State.drawData_rst : (s.drawData).rst = s.rst := rfl
@[simp] theorem State.drawData_cfg : (s.drawData).cfg = s.cfg := rfl
@[simp] theorem State.drawData_moves : (s.drawData).moves = s.moves := rfl
@[simp] theorem State.drawData_draws : (s.drawData).draws = s.draws + 1 := rfl

/-! ### enterReset -/

@[simp] theorem State.enterReset_ctx : (s.enterReset).ctx = Config.resetCtx s.draws := rfl
@[simp] theorem State.enterReset_blk : (s.enterReset).blk = Config.resetBlk s.draws := rfl
@[simp] theorem State.enterReset_dig : (s.enterReset).dig = Config.resetDig s.draws := rfl
@[simp] theorem State.enterReset_hex : (s.enterReset).hex = Config.resetHex s.draws := rfl
@[simp] theorem State.enterReset_status : (s.enterReset).status = 0x00#8 := rfl
@[simp] theorem State.enterReset_errcmd : (s.enterReset).errcmd = 0x0000#16 := rfl
@[simp] theorem State.enterReset_flight : (s.enterReset).flight = none := rfl
@[simp] theorem State.enterReset_rst : (s.enterReset).rst = true := rfl
@[simp] theorem State.enterReset_cfg : (s.enterReset).cfg = s.cfg := rfl
@[simp] theorem State.enterReset_moves : (s.enterReset).moves = s.moves := rfl
@[simp] theorem State.enterReset_draws : (s.enterReset).draws = s.draws + 1 := rfl

end Sys2Proof.Machine
end

