-- ==== Sys2Proof/Laws/Exec.lean ====
section
/-! SUPPORT. Once for each command and for each part of a step: everything it can do. Later proofs cite these instead of
unfolding a meaning or the step. -/

namespace Sys2Proof.Machine

variable {s t : State}

/-! ### The commands -/

theorem exec_init : exec .init s = .next (s.setCtx s.cfg.iv) := rfl
theorem exec_compress : exec .compress s = .next (s.setCtx (compressWords s.cfg s.ctx s.blk)) := rfl
theorem exec_extract : exec .extract s = .next (s.setDig (storeWords s.ctx)) := rfl
theorem exec_hexenc : exec .hexenc s = .next (s.setHex (hexOfDigest s.dig)) := rfl
theorem exec_ldb (idx : BitVec 5) (data : Byte) : exec (.ldb idx data) s = .next (s.writeBlk idx data) := rfl

/-- PAD with a legal length. -/
theorem exec_pad_legal {len : BitVec 6} (h : len.toNat ≤ 32) :
    exec (.pad len) s = .next (s.setBlk (padBlock s.blk len.toNat)) := by
  simp [exec, execPad, Nat.not_lt.mpr h]

/-- PAD with a length that is too long. -/
theorem exec_pad_long {len : BitVec 6} (h : 32 < len.toNat) :
    exec (.pad len) s = .next (s.raiseFault .padLength (encode (.pad len))) := by
  simp [exec, execPad, h]

/-- Whatever a command does, it leaves the handshake with the host and the wiring alone. -/
theorem exec_keeps_handshake {i : Instr} (h : exec i s = .next t) :
    t.flight = s.flight ∧ t.moves = s.moves ∧ t.rst = s.rst ∧ t.draws = s.draws ∧ t.cfg = s.cfg := by
  cases i with
  | pad len =>
    rcases Nat.lt_or_ge 32 len.toNat with hl | hl
    · rw [exec_pad_long hl] at h; cases h; simp
    · rw [exec_pad_legal hl] at h; cases h; simp
  | init => rw [exec_init] at h; cases h; simp
  | compress => rw [exec_compress] at h; cases h; simp
  | extract => rw [exec_extract] at h; cases h; simp
  | hexenc => rw [exec_hexenc] at h; cases h; simp
  | ldb idx data => rw [exec_ldb] at h; cases h; simp

/-- The decoder gives no PAD that is too long (R66). -/
theorem decode_pad_legal {w : CmdWord} {len : BitVec 6} (h : decode w = .ok (.pad len)) : len.toNat ≤ 32 := by
  unfold decode decodeFormatN decodeFormatL at h
  split at h <;> try split at h
  all_goals try split at h
  all_goals simp_all

/-! ### A step -/

theorem onNext_eq_next {f : State → State} {o : Result} (h : onNext f o = .next t) : ∃ u, o = .next u ∧ t = f u := by
  cases o <;> simp_all [onNext, eq_comm]

/-- The completion of an accepted word: the decoded command is executed, or the word faults. -/
theorem complete_cases {w : CmdWord} (h : complete w s = .next t) :
    (∃ i u, decode w = .ok i ∧ exec i s = .next u ∧ t = u.retire) ∨
    (∃ c, decode w = .error c ∧ t = (s.raiseFault c w).retire) := by
  unfold complete at h
  split at h
  case h_1 i hi =>
    obtain ⟨u, hu, rfl⟩ := onNext_eq_next h
    exact .inl ⟨i, u, hi, hu, rfl⟩
  case h_2 c hc => cases h; exact .inr ⟨c, hc, rfl⟩

/-- The engine's turn: the command in flight completes, or an engine without a fault idles. -/
theorem engineTurn_cases (h : engineTurn s = .next t) :
    (∃ w, s.flight = some w ∧ complete w s = .next t) ∨ (s.flight = none ∧ s.err = false ∧ t = s) := by
  unfold engineTurn at h
  split at h
  case h_1 w hw => exact .inl ⟨w, hw, h⟩
  case h_2 hn =>
    split at h
    · cases h
    · cases h; exact .inr ⟨hn, by simp_all, rfl⟩

/-- Everything a step can do: `rst` is asserted or released; a word is accepted; the moves alone change; or the command in
flight completes. -/
theorem step_cases (h : step s = .next t) :
    (∃ rest, s.moves = .assertRst :: rest ∧ t = (s.setMoves rest).enterReset) ∨
    (∃ rest, s.moves = .releaseRst :: rest ∧ t = (s.setMoves rest).leaveReset) ∨
    (∃ w rest, s.moves = .present w :: rest ∧ s.cmdReady = true ∧ t = (s.setMoves rest).accept w) ∨
    (∃ rest, t = s.setMoves rest) ∨
    (∃ w rest, s.flight = some w ∧ complete w (s.setMoves rest) = .next t) := by
  have turn : engineTurn s = .next t →
      (∃ rest, t = s.setMoves rest) ∨ (∃ w rest, s.flight = some w ∧ complete w (s.setMoves rest) = .next t) := by
    intro h
    rcases engineTurn_cases h with ⟨w, hw, hc⟩ | ⟨-, -, rfl⟩
    · exact .inr ⟨w, s.moves, hw, by simpa using hc⟩
    · exact .inl ⟨t.moves, by simp⟩
  unfold step advance at h
  split at h
  case h_1 => exact .inr (.inr (.inr (turn h)))
  case h_2 rest hm => cases h; exact .inl ⟨rest, hm, rfl⟩
  case h_3 rest hm => cases h; exact .inr (.inl ⟨rest, hm, rfl⟩)
  case h_4 w rest hm =>
    unfold presentWord at h
    split at h
    · cases h; exact .inr (.inr (.inl ⟨w, rest, hm, ‹_›, rfl⟩))
    · exact .inr (.inr (.inr (turn h)))
  case h_5 rest hm => cases h; exact .inr (.inr (.inr (.inl ⟨rest, rfl⟩)))
  case h_6 rest hm =>
    unfold waitTurn at h
    split at h
    · rcases engineTurn_cases h with ⟨w, hw, hc⟩ | ⟨-, -, rfl⟩
      · exact .inr (.inr (.inr (.inr ⟨w, rest, hw, hc⟩)))
      · exact .inr (.inr (.inr (.inl ⟨rest, rfl⟩)))
    · cases h; exact .inr (.inr (.inr (.inl ⟨rest, rfl⟩)))

/-- Releasing `rst`: a fresh idle state if it was asserted, else nothing (R180; log 7). -/
theorem State.leaveReset_eq (s : State) : s.leaveReset = if s.rst then s.enterReset.setRst false else s := rfl

/-- What `withFetchWord` is for: the very next step executes the word, and the host's moves are as they were. -/
theorem step_withFetchWord (s : State) (n w : Nat) :
    step (s.withFetchWord n w) =
      complete (BitVec.ofNat 16 (w % 2 ^ n)) (s.accept (BitVec.ofNat 16 (w % 2 ^ n))) := rfl

end Sys2Proof.Machine
end

