-- ==== Sys2Proof/Laws/PerInstr.lean ====
section
/-! SUPPORT. Statements made for each command as syntax, one lemma per constructor. -/

namespace Sys2Proof.Laws.EncodedOpcode

/-- The word of a command, whatever its operands, never has a reserved opcode (R65, R67). -/
def Statement (i : Instr) : Prop := opField (encode i) ≠ 0 ∧ opField (encode i) ≠ 7

theorem init : Statement .init := by unfold Statement; decide

theorem pad (len : BitVec 6) : Statement (.pad len) := by unfold Statement; revert len; decide

theorem compress : Statement .compress := by unfold Statement; decide

theorem extract : Statement .extract := by unfold Statement; decide

theorem hexenc : Statement .hexenc := by unfold Statement; decide

theorem ldb (idx : BitVec 5) (data : Byte) : Statement (.ldb idx data) := by
  have h : opField (encode (.ldb idx data)) = 6 := by
    apply BitVec.eq_of_toNat_eq
    simp only [opField, encode, BitVec.extractLsb'_toNat, BitVec.toNat_ofNat, Nat.shiftRight_eq_div_pow]
    have hi := idx.isLt
    have hd := data.isLt
    change _ = 6
    omega
  rw [Statement, h]; decide

end Sys2Proof.Laws.EncodedOpcode
end

