-- ==== Sys2Proof/Laws/Run.lean ====
section
/-! SUPPORT. Runs of several steps, one step at a time, and the part of the state a legal command neither reads nor writes. -/

namespace Sys2Proof.Machine

variable {s t : State}

/-- One step of a run, for any machine. -/
theorem run_succ (M : Host.Core) (k : Nat) (s : M.State) :
    M.run (k + 1) s =
      match M.step s with
      | .next s' => M.run k s'
      | .fault r => .fault r
      | .refused r => .refused r := rfl

theorem run_zero (s : State) : core.run 0 s = .next s := rfl

/-- A run that begins with a step to a next state. -/
theorem run_next (k : Nat) (h : step s = .next t) : core.run (k + 1) s = core.run k t := by
  have general : ∀ (M : Host.Core) (s t : M.State), M.step s = .next t → M.run (k + 1) s = M.run k t := by
    intro M s t h
    rw [run_succ, h]
  exact general core s t h

/-- A run that begins with a fault. -/
theorem run_fault (k : Nat) {r : Fault} (h : step s = .fault r) : core.run (k + 1) s = .fault r := by
  have general : ∀ (M : Host.Core) (s : M.State) (r : M.Fault), M.step s = .fault r → M.run (k + 1) s = .fault r := by
    intro M s r h
    rw [run_succ, h]
  exact general core s r h

/-- The engine's turn while a command is in flight, whether the host waits or has no move left. -/
theorem step_completes {w : CmdWord} {rest : List HostMove} (hf : s.flight = some w)
    (hm : s.moves = .wait :: rest ∨ (s.moves = [] ∧ rest = [])) : step s = complete w (s.setMoves rest) := by
  rcases hm with h | ⟨h, rfl⟩
  · have : (s.setMoves rest).flight = some w := hf
    simp only [step, advance, h, waitTurn, this, Option.isSome_some, if_true, engineTurn]
  · have e : s.setMoves [] = s := by rw [← h]; rfl
    simp only [step, advance, h, engineTurn, hf, e]

/-- The host's moves have no influence on what a command does. -/
theorem exec_setMoves (i : Instr) (s : State) (m : List HostMove) :
    exec i (s.setMoves m) = onNext (fun t => t.setMoves m) (exec i s) := by
  cases i with
  | pad len =>
    rcases Nat.lt_or_ge 32 len.toNat with hl | hl
    · rw [exec_pad_long hl, exec_pad_long hl]; rfl
    · rw [exec_pad_legal hl, exec_pad_legal hl]; rfl
  | init => rfl
  | compress => rfl
  | extract => rfl
  | hexenc => rfl
  | ldb idx data => rfl

/-- A legal command neither reads nor writes `STATUS` and the command in flight. -/
theorem exec_accept (i : Instr) (w : CmdWord) (hw : i.WellFormed) :
    exec i (s.accept w) =
      onNext (fun t => (t.setStatus (statusSetBusy s.status)).setFlight (some w)) (exec i s) := by
  cases i with
  | pad len => rw [exec_pad_legal hw, exec_pad_legal hw]; rfl
  | init => rfl
  | compress => rfl
  | extract => rfl
  | hexenc => rfl
  | ldb idx data => rfl

end Sys2Proof.Machine
end

