-- ==== Sys2Proof/Tests/Slice0.lean ====
section
/-! SUPPORT. Tests of single steps, with expected values from spec/95_test_vectors.md (V10 to V73) or worked out by hand from the
rule named, and witnesses: for every statement with hypotheses, a concrete case that meets all of them. -/

namespace Sys2Proof.Tests

open Sys2Proof Sys2Proof.Machine

/-! ### The test configuration and a small state -/

/-- `WK(t + d)`, the index modulo 8. -/
def nb (t d : Fin 8) : Fin 8 := t + d

/-- TCFG (spec/95_test_vectors.md section 2): invented by the spec, no LVHA256 value. -/
def tcfg : Cfg where
  iv := Vector.ofFn fun n => BitVec.ofNat 32 (0x11111111 * (n.val + 1))
  r1 := Vector.ofFn fun t =>
    { fn := #v[TemperFn.W, .X, .Y, .Z, .W, .X, .Y, .Z][t]
      ops := #v[.mi, .wk (nb t 1), .wk (nb t 2), .wk (nb t 3), .wk (nb t 4), .wk (nb t 5), .wk (nb t 6), .wk (nb t 7)] }
  r2mod := #v[{ c := 1, d := 3 }, { c := 2, d := 5 }, { c := 3, d := 7 }, { c := 4, d := 11 }, { c := 5, d := 13 },
    { c := 6, d := 17 }, { c := 7, d := 19 }, { c := 8, d := 23 }]
  r2 := Vector.ofFn fun t =>
    { ofn := #v[TemperFn.W, .X, .Y, .Z, .W, .X, .Y, .Z][t]
      oops := #v[.inner, .kv, if t.val % 2 = 0 then .mj else .mi, .wk (nb t 3), .wk (nb t 4), .wk (nb t 5),
        .wk (nb t 6), .wk (nb t 7)]
      ifn := #v[TemperFn.X, .Y, .Z, .W, .X, .Y, .Z, .W][t]
      iops := #v[.kv, if t.val % 2 = 0 then .mi else .mj, .wk (nb t 1), .wk (nb t 2), .wk (nb t 3), .wk (nb t 4),
        .wk (nb t 5), .wk (nb t 6)] }
  lsrc := #v[0, 1, 2, 3, 4, 5, 6, 7]

/-- TCFG with `P_LSRC[2]` = n (V49). -/
def tcfgIrregular (n : Fin 8) : Cfg := { tcfg with lsrc := #v[0, 1, n, 3, 4, 5, 6, 7] }

/-- An idle engine wired with TCFG, with stale bytes 0xEE in its buffers. -/
def demo : State where
  ctx := Vector.replicate 8 0
  blk := Vector.replicate 32 0xEE
  dig := Vector.replicate 32 0xEE
  hex := Vector.replicate 64 0xEE
  status := 0
  errcmd := 0
  flight := none
  rst := false
  cfg := tcfg
  moves := []
  draws := 1

/-- `demo` with `w` in flight and BUSY, the host waiting. -/
def demoBusy (w : CmdWord) : State := demo.withCommand w

/-- `demo` as the illegal word 0x4021 leaves it (V36). -/
def demoFaulted : State := { demo with status := 0x0E#8, errcmd := 0x4021#16 }

/-- The answer is a next state with property `p`. -/
def nextWith (o : Result) (p : State → Bool) : Bool :=
  match o with
  | .next t => p t
  | .fault _ => false
  | .refused _ => false

/-- The answer is the fault of the stuck engine. -/
def isFaulted (o : Result) : Bool :=
  match o with
  | .next _ => false
  | .fault .faulted => true
  | .refused _ => false

/-- The block of the empty message: 0x80 and 31 zeros. -/
def emptyBlock : Block := #v[0x80, 0, 0, 0, 0, 0, 0, 0, 0, 0, 0, 0, 0, 0, 0, 0, 0, 0, 0, 0, 0, 0, 0, 0, 0, 0, 0, 0, 0, 0, 0, 0]

/-- TCFG satisfies every condition of R8 (spec/95_test_vectors.md section 2). -/
theorem test_tcfg_documented : tcfg.Documented ∧ tcfg.Regular := by decide

/-! ### Well-formedness: an ill-formed term for the one check -/

theorem test_pad33_ill_formed : ¬(Instr.pad 33).WellFormed := by decide
theorem test_pad63_ill_formed : ¬(Instr.pad 63).WellFormed := by decide
theorem test_pad32_well_formed : (Instr.pad 32).WellFormed := by decide

/-! ### Decoding (V10, V11): words written out bit by bit from R65's map -/

theorem test_decode_init : decode 0b0010000000000000#16 = .ok .init := by decide
theorem test_decode_pad1 : decode 0b0100000000000001#16 = .ok (.pad 1) := by decide
theorem test_decode_pad32 : decode 0b0100000000100000#16 = .ok (.pad 32) := by decide
theorem test_decode_compress : decode 0b0110000000000000#16 = .ok .compress := by decide
theorem test_decode_extract : decode 0b1000000000000000#16 = .ok .extract := by decide
theorem test_decode_hexenc : decode 0b1010000000000000#16 = .ok .hexenc := by decide
theorem test_decode_ldb : decode 0b1100000110000000#16 = .ok (.ldb 1 0x80) := by decide
theorem test_decode_ldb16 : decode 0b1101000000010000#16 = .ok (.ldb 16 0x10) := by decide
theorem test_decode_reserved_opcode : decode 0x1FFF#16 = .error .reservedOpcode ∧ decode 0xE000#16 = .error .reservedOpcode := by
  decide
theorem test_decode_reserved_field : decode 0x8100#16 = .error .reservedField ∧ decode 0xBFFF#16 = .error .reservedField ∧
    decode 0x4040#16 = .error .reservedField ∧ decode 0x4FFF#16 = .error .reservedField := by decide
theorem test_decode_pad_length : decode 0x4021#16 = .error .padLength ∧ decode 0x403F#16 = .error .padLength := by decide
theorem test_encode : encode .init = 0x2000 ∧ encode (.pad 31) = 0x401F ∧ encode .compress = 0x6000 ∧
    encode .extract = 0x8000 ∧ encode .hexenc = 0xA000 ∧ encode (.ldb 31 0xFF) = 0xDFFF ∧ encode (.ldb 0 0x61) = 0xC061 := by
  decide
theorem test_decodeTableWord : decodeTableWord 16 0xC061 = some (.ldb 0 0x61) ∧ decodeTableWord 16 0x4021 = none := by decide

/-! ### INIT, LDB, PAD -/

/-- V20: the last of TCFG's constants. -/
theorem test_init : nextWith (exec .init demo) (fun t => t.ctx[0] = 0x11111111 ∧ t.ctx[7] = 0x88888888) := by decide

/-- V30. -/
theorem test_ldb : nextWith (exec (.ldb 3 0x7F) demo) (fun t => t.blk[3] = 0x7F ∧ t.blk[2] = 0xEE ∧ t.blk[4] = 0xEE) := by
  decide

/-- V31. -/
theorem test_pad0 : nextWith (exec (.pad 0) demo) (fun t => t.blk = emptyBlock) := by decide

/-- V34: the marker in the last byte. -/
theorem test_pad31 : nextWith (exec (.pad 31) demo) (fun t => t.blk[30] = 0xEE ∧ t.blk[31] = 0x80) := by decide

/-! ### COMPRESS -/

/-- V4A. -/
theorem test_loadWords : (loadWords (Vector.ofFn fun k => BitVec.ofNat 8 k.val))[7] = 0x1F1E1D1C#32 := by decide

/-- V44, row i = 7. -/
theorem test_scalarK : scalarK tcfg 7 #v[0xD19CB996, 0x882D204A, 0xEC25290B, 0xF61A8504, 0x35711299, 0x6C9BBDA2, 0x3BB59967,
    0x528746C8] = 156 := by decide

/-- V40: one COMPRESS under TCFG. -/
theorem test_compress : nextWith (exec .compress { demo with ctx := tcfg.iv, blk := emptyBlock }) (fun t =>
    t.ctx = #v[0xEBC38E71, 0x73BF601C, 0x9577A1CC, 0x38628759, 0x373F226D, 0xE435E857, 0x61741E76, 0x12996C99]) := by decide +kernel

/-- V49: the irregular rotate-left branch, from a lower and from a higher word. -/
theorem test_compress_irregular : nextWith (exec .compress { demo with cfg := tcfgIrregular 1, ctx := tcfg.iv, blk := emptyBlock })
      (fun t => t.ctx[0] = 0x3C0111E6 ∧ t.ctx[7] = 0x2CB83217) ∧
    nextWith (exec .compress { demo with cfg := tcfgIrregular 5, ctx := tcfg.iv, blk := emptyBlock })
      (fun t => t.ctx[0] = 0x87305ABC ∧ t.ctx[7] = 0xD8A6DF6D) := by decide +kernel

/-! ### EXTRACT and HEXENC -/

/-- V50. -/
theorem test_extract : nextWith (exec .extract { demo with ctx := #v[0x01020304, 0, 0, 0, 0, 0, 0, 0x1D1E1F20] })
    (fun t => t.dig[0] = 0x01 ∧ t.dig[3] = 0x04 ∧ t.dig[28] = 0x1D ∧ t.dig[31] = 0x20) := by decide

/-- V51: the first bytes of the digest de ad. -/
theorem test_hexenc : nextWith (exec .hexenc { demo with dig := (demo.dig.set 0 0xDE).set 1 0x0A })
    (fun t => t.hex[0] = 0x64 ∧ t.hex[1] = 0x65 ∧ t.hex[2] = 0x30 ∧ t.hex[3] = 0x61) := by decide

/-! ### Faults, reset, handshake -/

/-- V60, V61, V36: `STATUS` and `ERRCMD` after an illegal word. -/
theorem test_fault_entry : nextWith (step (demoBusy 0x0000)) (fun t => t.status = 0x06 ∧ t.errcmd = 0) ∧
    nextWith (step (demoBusy 0x6001)) (fun t => t.status = 0x0A ∧ t.errcmd = 0x6001) ∧
    nextWith (step (demoBusy 0x403F)) (fun t => t.status = 0x0E ∧ t.errcmd = 0x403F ∧ t.flight = none) := by decide

/-- V62: in the faulted state INIT is not accepted. -/
theorem test_faulted_is_stuck : isFaulted (step { demoFaulted with moves := [.present 0x2000] }) ∧ isFaulted (step demoFaulted) := by
  decide

/-- R180: hardware reset leaves the faulted state. -/
theorem test_reset_leaves_fault : nextWith (core.run 2 { demoFaulted with moves := [.assertRst, .releaseRst] })
    (fun t => t.cmdReady ∧ t.status = 0 ∧ t.errcmd = 0) := by decide

/-- R25, R49: acceptance sets BUSY and keeps the word; completion clears it. -/
theorem test_accept_and_complete : nextWith (step { demo with moves := [.present 0x4000] })
      (fun t => t.status = 0x01 ∧ t.flight = some 0x4000 ∧ t.blk = demo.blk ∧ !t.cmdReady) ∧
    nextWith (core.run 2 { demo with moves := [.present 0x4000] }) (fun t => t.status = 0 ∧ t.blk = emptyBlock) := by decide

/-- The word placed for the host's check runs as the very next step, right after reset too, where the data registers are free
values: the engine is idle again, or has faulted. -/
theorem test_withFetchWord : nextWith (step (demo.withFetchWord 16 0xC061)) (fun t => t.blk[0] = 0x61 ∧ t.moves = []) ∧
    nextWith (step (State.reset.withFetchWord 16 0x6000)) (fun t => t.status = 0 ∧ t.flight = none) ∧
    nextWith (step (State.reset.withFetchWord 16 0x6001)) (fun t => t.status = 0x0A) := by decide

/-- R33: each read port at the last index of its space, with a different value in every element read. -/
theorem test_read_ports :
    ({ demo with blk := demo.blk.set 31 0x1F } : State).readPort (.blk 31) = 0x1F ∧
    ({ demo with dig := demo.dig.set 31 0x2F } : State).readPort (.dig 31) = 0x2F ∧
    ({ demo with hex := demo.hex.set 63 0x3F } : State).readPort (.hex 63) = 0x3F ∧
    ({ demo with ctx := demo.ctx.set 7 0xFEDCBA98 } : State).readPort (.ctx 7) = 0xFEDCBA98 ∧
    demoFaulted.readPort .status = 0x0E ∧ demoFaulted.readPort .errcmd = 0x4021 := by decide

/-- R33: `cmd_ready` is 0 while busy, faulted or in reset, and 1 otherwise. -/
theorem test_cmd_ready : demo.cmdReady ∧ !({ demo with status := 0x01 } : State).cmdReady ∧
    !({ demo with status := 0x06 } : State).cmdReady ∧ !({ demo with rst := true } : State).cmdReady := by decide

/-- R13: the selectors, each operand with a value of its own. -/
theorem test_selectors : [SelOuter.inner, .kv, .mi, .mj, .wk 7].map (selOuter 1 2 3 4 (Vector.replicate 8 5)) = [1, 4, 2, 3, 5] ∧
    [SelInner.kv, .mi, .mj, .wk 0].map (selInner 2 3 4 (Vector.replicate 8 5)) = [4, 2, 3, 5] ∧
    [Sel1.mi, .wk 3].map (sel1 2 (Vector.replicate 8 5)) = [2, 5] := by decide

/-- P6: stale bytes are compressed as data; `BLK` after PAD 2 is 61 80 80 00 ... -/
theorem test_stale_block : nextWith (exec (.pad 2) { demo with blk := emptyBlock.set 0 0x61 |>.set 1 0x80 })
    (fun t => t.blk[0] = 0x61 ∧ t.blk[1] = 0x80 ∧ t.blk[2] = 0x80 ∧ t.blk[3] = 0) := by decide

/-! ### Witnesses: the hypotheses of each statement are met, each clause at a boundary value -/

theorem witness_rotationsMoveBits : (0 < 1 ∧ 1 < 32) ∧ 31 < 32 ∧ (0 : Nat) < 32 := by decide

theorem witness_decodeOfEncode : (Instr.pad 32).WellFormed ∧ (Instr.ldb 31 0xFF).WellFormed := by decide

theorem witness_encodeOfDecode : decode 0x4020#16 = .ok (.pad 32) ∧ decode 0xC000#16 = .ok (.ldb 0 0) := by decide

theorem witness_decodingIsTotalInOrder :
    (0x1FFF#16).toNat / 8192 = 0 ∧ (0xE000#16).toNat / 8192 = 7 ∧
    ((0x2001#16).toNat / 8192 = 1 ∧ (0x2001#16).toNat % 8192 ≠ 0) ∧
    ((0x4040#16).toNat / 8192 = 2 ∧ (0x4040#16).toNat % 8192 / 64 ≠ 0) ∧
    ((0x4021#16).toNat / 8192 = 2 ∧ (0x4021#16).toNat % 8192 / 64 = 0 ∧ 32 < (0x4021#16).toNat % 64) ∧
    ((0x2000#16).toNat / 8192 = 1 ∧ (0x2000#16).toNat % 8192 = 0) ∧
    ((0x4020#16).toNat / 8192 = 2 ∧ (0x4020#16).toNat % 8192 / 64 = 0 ∧ (0x4020#16).toNat % 64 ≤ 32) ∧
    ((0x6000#16).toNat / 8192 = 3 ∧ (0x6000#16).toNat % 8192 = 0) ∧
    ((0x8000#16).toNat / 8192 = 4 ∧ (0x8000#16).toNat % 8192 = 0) ∧
    ((0xA000#16).toNat / 8192 = 5 ∧ (0xA000#16).toNat % 8192 = 0) ∧ (0xDFFF#16).toNat / 8192 = 6 := by decide

theorem witness_initForgetsThePast : demo.cfg = demoFaulted.cfg ∧ demo ≠ demoFaulted := by decide

theorem witness_ldbWritesOneByte : (30 : BitVec 5) ≠ 31 ∧ (0 : BitVec 5) ≠ 31 := by decide

theorem witness_padShortChunk : (31 : BitVec 6).toNat < 32 ∧ (0 : BitVec 6).toNat < 32 := by decide

theorem witness_padFullChangesNothing : demo.Idle := by decide

theorem witness_padTooLongFaults : 32 < (33 : BitVec 6).toNat ∧ 32 < (63 : BitVec 6).toNat := by decide

theorem witness_padProperties :
    ((31 : Nat) < 32 ∧ ∀ k : Fin 32, (padBlock demo.blk 31)[k] =
      (if k.val < 31 then demo.blk[k] else if k.val = 31 then 0x80#8 else 0x00#8)) ∧
    (padBlock demo.blk 5 = padBlock (padBlock demo.blk 5) 5) ∧
    ((32 : BitVec 6).toNat ≤ 32 ∧ demo.blk = demoFaulted.blk ∧ demo ≠ demoFaulted) := by decide

theorem witness_regularWiringRotatesOwnValue : tcfg.Regular ∧ ¬(tcfgIrregular 1).Regular := by decide

theorem witness_compressReadsOnlyCtxAndBlk : demo.cfg = demoFaulted.cfg ∧ demo.ctx = demoFaulted.ctx ∧ demo.blk = demoFaulted.blk ∧
    demo ≠ demoFaulted := by decide

theorem witness_digestAsOneNumber :
    ((loadWords (((demo.blk.set 0 0x01).set 1 0x02).set 2 0x03 |>.set 3 0x04))[0] = 0x04030201#32) ∧
    (demo.ctx.set 0 0x04030201#32)[0] = 0x04030201#32 := by decide

theorem witness_hexCharacterCodes : (9 : BitVec 4).toNat ≤ 9 ∧ 10 ≤ (10 : BitVec 4).toNat ∧ 10 ≤ (15 : BitVec 4).toNat := by decide

theorem witness_hexencNext : exec .hexenc demo = .next (demo.setHex (hexOfDigest demo.dig)) ∧ demo.dig = demoFaulted.dig ∧
    exec .hexenc demoFaulted = .next (demoFaulted.setHex (hexOfDigest demoFaulted.dig)) := ⟨rfl, rfl, rfl⟩

theorem witness_faultEntry : (demoBusy 0x4021).flight = some 0x4021#16 ∧ decode 0x4021#16 = .error .padLength ∧
    (demoBusy 0x4021).EngineNext [] ∧ ({ demoBusy 0x4021 with moves := [] } : State).EngineNext [] := by decide

theorem witness_faultedUntilReset : demoFaulted.Inv ∧ demoFaulted.err = true ∧ demoFaulted.moves = [] ∧
    ({ demoFaulted with moves := [.present 0x2000] } : State).Inv ∧
    ({ demoFaulted with moves := [.read .status] } : State).Inv := by decide

theorem witness_faultedWait : (∀ rest, ({ demoFaulted with moves := [.wait] } : State).moves ≠ .assertRst :: rest) ∧
    step { demoFaulted with moves := [.wait] } = .next demoFaulted := ⟨by simp, rfl⟩

theorem witness_errClearedByResetOnly : ({ demoFaulted with moves := [.assertRst] } : State).Inv ∧ demoFaulted.err = true ∧
    step { demoFaulted with moves := [.assertRst] } = .next demoFaulted.enterReset ∧ demoFaulted.enterReset.err = false :=
  ⟨by decide, by decide, rfl, rfl⟩

theorem witness_errcmdByFault : (demoBusy 0x4021).Inv ∧ (demoBusy 0x4021).EngineNext [] ∧
    step (demoBusy 0x4021) = .next demoFaulted ∧ demoFaulted.errcmd ≠ (demoBusy 0x4021).errcmd :=
  ⟨by decide, by decide, rfl, by decide⟩

theorem witness_errcmdByReset : demoFaulted.enterReset.errcmd ≠ demoFaulted.errcmd ∧ demoFaulted.enterReset.errcmd = 0 := by
  decide

theorem witness_hardwareReset :
    ({ demoBusy 0x6000 with moves := [.assertRst, .releaseRst] } : State).moves = .assertRst :: .releaseRst :: [] := rfl

theorem witness_acceptance : demo.cmdReady = true ∧
    ({ demo with moves := [.present 0xA000, .wait] } : State).moves = .present 0xA000#16 :: [.wait] := by decide

theorem witness_presentedWordWaits : (demoBusy 0x8000).cmdReady = false ∧ demoFaulted.cmdReady = false ∧
    ({ demo with rst := true } : State).cmdReady = false := by decide

theorem witness_stepRunsDecodedCommand : (demoBusy 0xA000).flight = some 0xA000#16 ∧ decode 0xA000#16 = .ok .hexenc ∧
    (demoBusy 0xA000).EngineNext [] := by decide

theorem witness_stepKeepsInvariant : (demoBusy 0x4021).Inv ∧ demo.Inv ∧ step (demoBusy 0x4021) = .next demoFaulted :=
  ⟨by decide, by decide, rfl⟩

theorem witness_registersHaveTheirWriters : nextWith (step (demoBusy 0x2000)) (fun t => t.ctx ≠ demo.ctx) ∧
    nextWith (step (demoBusy 0xC061)) (fun t => t.blk ≠ demo.blk) ∧
    nextWith (step (demoBusy 0x8000)) (fun t => t.dig ≠ demo.dig) ∧
    nextWith (step (demoBusy 0xA000)) (fun t => t.hex ≠ demo.hex) := by decide

theorem witness_legalCommandsComplete : (Instr.pad 32).WellFormed ∧ Instr.init.WellFormed ∧ (Instr.ldb 31 0).WellFormed := by decide

theorem witness_readsHaveNoSideEffect :
    ({ demoFaulted with moves := [.read (.hex 63)] } : State).moves = .read (.hex 63) :: [] := rfl

theorem witness_wiringNeverChanges : step { demo with moves := [.wait] } = .next demo ∧
    exec .init demo = .next (demo.setCtx tcfg.iv) := ⟨rfl, rfl⟩

theorem witness_runs : (∀ i ∈ [Instr.init, .pad 0], i.WellFormed) ∧ demo.Idle ∧ demo.status = 0 ∧
    ({ demo with moves := presentAll [.init, .pad 0] } : State).moves = presentAll [.init, .pad 0] :=
  ⟨by intro i hi; simp at hi; rcases hi with rfl | rfl <;> decide, by decide, rfl, rfl⟩

theorem witness_runStopsAfterFault : demo.Idle ∧ decode 0x4021#16 = .error .padLength ∧
    ({ demo with moves := [.present 0x4021, .present 0x6000] } : State).moves = .present 0x4021#16 :: [.present 0x6000] := by decide

theorem witness_blockCount : 0 < 2 ∧ (List.replicate 64 (0x61 : Byte)).length = 32 * 2 := by decide

theorem witness_blocksOfMessage : 0 < (blocks []).length ∧ 1 < (blocks (List.replicate 33 0x61)).length := by decide

theorem witness_blocksOfConcatenation : 0 < (List.replicate 32 (0x61 : Byte)).length ∧
    (List.replicate 32 (0x61 : Byte)).length % 32 = 0 ∧ [(0x62 : Byte)] ≠ [] := by decide

theorem witness_paddingAmbiguity : ([] : List Byte).length = 0 ∧ (List.replicate 33 (0x61 : Byte)).length % 32 ≠ 0 := by decide

end Sys2Proof.Tests
end

section
/-! PROOFS. Digest serialisation (R42). -/

namespace Sys2Proof.Machine

/-- R42: the four bytes from index 4n on are word n's own, most significant first. -/
theorem getElem_storeWords_word (ctx : Words) (n : Fin 8) (m : Nat) (hm : m < 4) :
    (storeWords ctx)[4 * n.val + m] = byteOfWordBE ctx[n] m := by
  have hword : (4 * n.val + m) / 4 = n.val := by omega
  have hbyte : (4 * n.val + m) % 4 = m := by omega
  simp [hword, hbyte]

/-- Settles O27: EXTRACT writes `DIG` alone, and each word's four bytes stand in it most significant first. -/
theorem extractBigEndian : Obligations.ExtractBigEndian := by
  intro s
  refine ⟨s.setDig (storeWords s.ctx), exec_extract, rfl, fun n => ?_⟩
  have byteAt := getElem_storeWords_word s.ctx n
  exact ⟨byteAt 0 (by decide), byteAt 1 (by decide), byteAt 2 (by decide), byteAt 3 (by decide)⟩

end Sys2Proof.Machine
end

section
/-! PROOFS. Block padding (R87 to R90). -/

namespace Sys2Proof.Machine

/-- R88: below 32 the padded block is the chunk, the marker and the zero fill. -/
theorem getElem_padBlock_short (blk : Block) {L k : Nat} (hL : L < 32) (hk : k < 32) :
    (padBlock blk L)[k] = if k < L then blk[k] else if k = L then 0x80#8 else 0x00#8 := by
  rw [getElem_padBlock, if_pos hL]

/-- R88: the padded block depends on the first L bytes of the buffer alone. -/
theorem padBlock_eq_of_prefix_eq {b b' : Block} {L : Nat}
    (hprefix : ∀ (k : Nat) (hk : k < 32), k < L → b[k] = b'[k]) : padBlock b L = padBlock b' L := by
  ext1 k hk
  rw [getElem_padBlock, getElem_padBlock]
  by_cases hkL : k < L
  · simp [hkL, hprefix k hk hkL]
  · have hshort : L < 32 := by omega
    simp [hkL, hshort]

/-- R90: with L = 0 no byte of the buffer has an influence. -/
theorem padBlock_zero_eq (b b' : Block) : padBlock b 0 = padBlock b' 0 :=
  padBlock_eq_of_prefix_eq fun _ _ hk => absurd hk (Nat.not_lt_zero _)

/-- R152: the empty message is one block, which PAD 0 makes of any buffer. -/
theorem blocks_nil (b : Block) : blocks [] = [padBlock b 0] := by
  rw [padBlock_zero_eq b (toBlock [])]
  rfl

/-- Settles O10: PAD of a short chunk writes the padded block to `BLK` and leaves every other register alone. -/
theorem padShortChunk : Obligations.PadShortChunk := by
  intro s len hlen
  exact ⟨s.setBlk (padBlock s.blk len.toNat), exec_pad_legal hlen.le, rfl,
    fun k => getElem_padBlock_short s.blk hlen k.isLt⟩

/-- Settles O12: PAD 0 leaves the one block of the empty message, whatever the state. -/
theorem padEmptyChunk : Obligations.PadEmptyChunk := by
  intro s
  have hlegal : (0 : BitVec 6).toNat ≤ 32 := by decide
  refine ⟨s.setBlk (padBlock s.blk 0), exec_pad_legal hlegal, rfl, fun k => ?_, blocks_nil s.blk⟩
  have hbyte := getElem_padBlock_short s.blk (show 0 < 32 by decide) k.isLt
  rw [if_neg (Nat.not_lt_zero _)] at hbyte
  exact hbyte

end Sys2Proof.Machine
end

section
/-! PROOFS. Compression: the temper functions, the feed-forward of a round, and COMPRESS as a command (R104 to R111, R128). -/

namespace Sys2Proof.Machine

/-! ### The feed-forward of a loop over the eight words -/

@[simp] theorem getElem_feedForward (new old : Words) (t : Fin 8) (n : Nat) (h : n < 8) :
    (feedForward new old t)[n] = if n < t.val then new[n] else old[n] :=
  Vector.getElem_ofFn h

/-- After a loop that writes word t at target t, word t holds what was written there. -/
theorem getElem_foldl_idx8_set {α : Type} (f : α → Fin 8 → α) (w : α → Words) (g : α → Fin 8 → Word)
    (hf : ∀ a t, w (f a t) = (w a).set t.val (g a t) t.isLt) (a : α) (t : Fin 8) :
    (w (idx8.foldl f a))[t] = g ((idx8.take t.val).foldl f a) t := by
  rw [foldl_idx8, getElem_foldl_set f w g hf a 8 le_rfl t, if_pos t.isLt]

/-- R111: such a loop meets target t with the words below it at their final values and the others at their first. -/
theorem foldl_take_eq_feedForward {α : Type} (f : α → Fin 8 → α) (w : α → Words) (g : α → Fin 8 → Word)
    (hf : ∀ a t, w (f a t) = (w a).set t.val (g a t) t.isLt) (a : α) (t : Fin 8) :
    w ((idx8.take t.val).foldl f a) = feedForward (w (idx8.foldl f a)) (w a) t := by
  ext1 n hn
  have atTarget := getElem_foldl_set f w g hf a t.val t.isLt.le ⟨n, hn⟩
  rw [← getElem_foldl_idx8_set f w g hf a ⟨n, hn⟩] at atTarget
  rw [getElem_feedForward]
  exact atTarget

/-! ### Round 1 (R110, R111) -/

/-- R111: in an iteration of Round 1, word t is computed from the new words below t and the old ones at and above it. -/
theorem getElem_round1Iter (cfg : Cfg) (mi : Word) (wk : Words) (t : Fin 8) :
    (round1Iter cfg mi wk)[t] = round1Word cfg mi (feedForward (round1Iter cfg mi wk) wk t) t := by
  have writes : ∀ a t, round1Target cfg mi a t = a.set t.val (round1Word cfg mi a t) t.isLt := fun _ _ => rfl
  calc (round1Iter cfg mi wk)[t]
      = round1Word cfg mi ((idx8.take t.val).foldl (round1Target cfg mi) wk) t :=
        getElem_foldl_idx8_set _ id _ writes wk t
    _ = round1Word cfg mi (feedForward (round1Iter cfg mi wk) wk t) t :=
        congrArg (round1Word cfg mi · t) (foldl_take_eq_feedForward _ id _ writes wk t)

/-- The working words of Round 1 after its first n iterations. -/
def round1After (cfg : Cfg) (u ctx : Words) (n : Nat) : Words :=
  (idx8.take n).foldl (fun wk i => round1Iter cfg u[i] wk) ctx

theorem round1After_zero (cfg : Cfg) (u ctx : Words) : round1After cfg u ctx 0 = ctx := rfl

theorem round1After_succ (cfg : Cfg) (u ctx : Words) (i : Fin 8) :
    round1After cfg u ctx (i.val + 1) = round1Iter cfg u[i] (round1After cfg u ctx i.val) :=
  foldl_take_succ _ ctx i

theorem round1After_eight (cfg : Cfg) (u ctx : Words) : round1After cfg u ctx 8 = round1 cfg u ctx :=
  (foldl_idx8 _ ctx).symm

/-- Settles O18: the sequence is that of the working words after each iteration of Round 1. -/
theorem round1FeedsForward : Obligations.Round1FeedsForward := by
  refine ⟨fun cfg u ctx => ⟨round1After cfg u ctx, round1After_zero cfg u ctx, round1After_eight cfg u ctx,
    fun i t => ?_⟩, fun mi new old t => ⟨rfl, fun n => getElem_feedForward new old t n n.isLt⟩⟩
  rw [round1After_succ]
  exact getElem_round1Iter cfg u[i] (round1After cfg u ctx i.val) t

/-! ### The temper functions (R104 to R106) -/

/-- Settles O16: each temper function takes its operands in order, and the rules' examples are evaluated. -/
theorem temperFunctionsWXY : Obligations.TemperFunctionsWXY := by
  refine ⟨fun v => ⟨?W, ?X, ?Y⟩, ?examples⟩
  case W => rfl
  case X => rfl
  case Y => rfl
  case examples => decide

/-! ### COMPRESS (R128) -/

/-- Settles O26: what COMPRESS writes is `compressWords` of the three registers in which the two states agree, and it
writes `CTX` alone. -/
theorem compressReadsOnlyCtxAndBlk : Obligations.CompressReadsOnlyCtxAndBlk := by
  intro s s' hcfg hctx hblk
  have hwords : compressWords s.cfg s.ctx s.blk = compressWords s'.cfg s'.ctx s'.blk := by rw [hcfg, hctx, hblk]
  exact ⟨s.setCtx _, s'.setCtx _, exec_compress, exec_compress, hwords, rfl, rfl, rfl, rfl, rfl⟩

end Sys2Proof.Machine
end

section
/-! PROOFS. Legal commands raise no fault (R160). -/

namespace Sys2Proof.Machine

/-- R160: a legal command writes a data register and so answers a next state without a trace of fault entry (R163). The
length check of PAD is the one place where legality is needed. -/
theorem exec_next_of_wellFormed {i : Instr} (hw : i.WellFormed) (s : State) :
    ∃ t, exec i s = .next t ∧ t.status = s.status ∧ t.errcmd = s.errcmd := by
  cases i with
  | init => exact ⟨_, exec_init, s.setCtx_status _, s.setCtx_errcmd _⟩
  | pad len => exact ⟨_, exec_pad_legal hw, s.setBlk_status _, s.setBlk_errcmd _⟩
  | compress => exact ⟨_, exec_compress, s.setCtx_status _, s.setCtx_errcmd _⟩
  | extract => exact ⟨_, exec_extract, s.setDig_status _, s.setDig_errcmd _⟩
  | hexenc => exact ⟨_, exec_hexenc, s.setHex_status _, s.setHex_errcmd _⟩
  | ldb idx data => exact ⟨_, exec_ldb idx data, s.writeBlk_status idx data, s.writeBlk_errcmd idx data⟩

/-- Settles O33: a legal command completes without a fault, and no command touches the handshake with the host. -/
theorem legalCommandsComplete : Obligations.LegalCommandsComplete := by
  intro i hw s
  obtain ⟨t, hexec, hstatus, herrcmd⟩ := exec_next_of_wellFormed hw s
  obtain ⟨hflight, hmoves, -⟩ := exec_keeps_handshake hexec
  exact ⟨t, hexec, hstatus, herrcmd, hflight, hmoves⟩

end Sys2Proof.Machine
end

section
/-! PROOFS. Decoding and encoding (R60 to R67). -/

namespace Sys2Proof

/-! ### The fields of a word as numbers (R60 to R64) -/

@[simp] theorem opField_toNat (w : CmdWord) : (opField w).toNat = w.toNat / 8192 := by
  have hw := w.isLt
  simp only [opField, BitVec.extractLsb'_toNat, Nat.shiftRight_eq_div_pow]
  omega

@[simp] theorem zero13Field_eq_zero_iff (w : CmdWord) : zero13Field w = 0 ↔ w.toNat % 8192 = 0 := by
  simp [zero13Field, ← BitVec.toNat_inj, BitVec.extractLsb'_toNat]

@[simp] theorem zero7Field_eq_zero_iff (w : CmdWord) : zero7Field w = 0 ↔ w.toNat % 8192 / 64 = 0 := by
  simp only [zero7Field, ← BitVec.toNat_inj, BitVec.extractLsb'_toNat, Nat.shiftRight_eq_div_pow, BitVec.ofNat_eq_ofNat,
    BitVec.toNat_ofNat]
  omega

theorem lenField_eq (w : CmdWord) : lenField w = BitVec.ofNat 6 (w.toNat % 64) := by
  simp [lenField, ← BitVec.toNat_inj, BitVec.extractLsb'_toNat]

@[simp] theorem lenField_toNat (w : CmdWord) : (lenField w).toNat = w.toNat % 64 := by
  simp [lenField_eq]

theorem idxField_eq (w : CmdWord) : idxField w = BitVec.ofNat 5 (w.toNat % 8192 / 256) := by
  simp only [idxField, ← BitVec.toNat_inj, BitVec.extractLsb'_toNat, Nat.shiftRight_eq_div_pow, BitVec.toNat_ofNat]
  omega

theorem dataField_eq (w : CmdWord) : dataField w = BitVec.ofNat 8 (w.toNat % 256) := by
  simp [dataField, ← BitVec.toNat_inj, BitVec.extractLsb'_toNat]

/-! ### The rows of the opcode map (R65) and the causes (R66) -/

/-- The opcode of a format N command (R65). -/
def formatNOpcode : Instr → Option Nat
  | .init => some 1
  | .compress => some 3
  | .extract => some 4
  | .hexenc => some 5
  | .pad _ => none
  | .ldb _ _ => none

theorem exists_formatNOpcode {op : Nat} (hop : op = 1 ∨ op = 3 ∨ op = 4 ∨ op = 5) :
    ∃ i, formatNOpcode i = some op := by
  rcases hop with rfl | rfl | rfl | rfl
  exacts [⟨.init, rfl⟩, ⟨.compress, rfl⟩, ⟨.extract, rfl⟩, ⟨.hexenc, rfl⟩]

section Rows
variable {w : CmdWord}

theorem decode_reservedOpcode (hop : w.toNat / 8192 = 0 ∨ w.toNat / 8192 = 7) : decode w = .error .reservedOpcode := by
  rcases hop with hop | hop <;> simp [decode, hop]

/-- A format N row (R61): below the opcode every bit is reserved. -/
theorem decode_formatN {i : Instr} (hop : formatNOpcode i = some (w.toNat / 8192)) :
    decode w = if w.toNat % 8192 = 0 then .ok i else .error .reservedField := by
  have hformat : decode w = decodeFormatN i w := by
    cases i <;> simp only [formatNOpcode, Option.some.injEq, reduceCtorEq] at hop <;> simp [decode, ← hop]
  simp only [hformat, decodeFormatN, zero13Field_eq_zero_iff]

theorem decode_formatL (hop : w.toNat / 8192 = 2) :
    decode w = if w.toNat % 8192 / 64 = 0 then
      (if w.toNat % 64 ≤ 32 then .ok (.pad (BitVec.ofNat 6 (w.toNat % 64))) else .error .padLength)
      else .error .reservedField := by
  have hformat : decode w = decodeFormatL w := by simp [decode, hop]
  rw [hformat, decodeFormatL, ← lenField_eq]
  simp only [zero7Field_eq_zero_iff, lenField_toNat]

theorem decode_formatB (hop : w.toNat / 8192 = 6) :
    decode w = .ok (.ldb (BitVec.ofNat 5 (w.toNat % 8192 / 256)) (BitVec.ofNat 8 (w.toNat % 256))) := by
  simp [decode, hop, ← idxField_eq, ← dataField_eq]

end Rows

/-- Settles O5: the format of each opcode, and within it the order of the checks. -/
theorem decodingIsTotalInOrder : Obligations.DecodingIsTotalInOrder := by
  intro w
  refine ⟨decode_reservedOpcode, ?formatN, ?zero7, ?length, ?init, ?pad, ?compress, ?extract, ?hexenc, decode_formatB⟩
  case formatN =>
    intro hop hlow
    obtain ⟨i, hi⟩ := exists_formatNOpcode hop
    rw [decode_formatN hi, if_neg hlow]
  case zero7 => intro hop hzero; rw [decode_formatL hop, if_neg hzero]
  case length => intro hop hzero hlen; rw [decode_formatL hop, if_pos hzero, if_neg (by omega)]
  case pad => intro hop hzero hlen; rw [decode_formatL hop, if_pos hzero, if_pos hlen]
  case init => intro hop hlow; rw [decode_formatN (i := .init) (congrArg some hop.symm), if_pos hlow]
  case compress => intro hop hlow; rw [decode_formatN (i := .compress) (congrArg some hop.symm), if_pos hlow]
  case extract => intro hop hlow; rw [decode_formatN (i := .extract) (congrArg some hop.symm), if_pos hlow]
  case hexenc => intro hop hlow; rw [decode_formatN (i := .hexenc) (congrArg some hop.symm), if_pos hlow]

/-! ### The encoder -/

theorem encode_pad_toNat (len : BitVec 6) : (encode (.pad len)).toNat = 0x4000 + len.toNat := by
  have hlen := len.isLt
  simp only [encode, BitVec.toNat_ofNat]
  omega

theorem encode_ldb_toNat (idx : BitVec 5) (data : Byte) :
    (encode (.ldb idx data)).toNat = 0xC000 + 256 * idx.toNat + data.toNat := by
  have hidx := idx.isLt
  have hdata := data.isLt
  simp only [encode, BitVec.toNat_ofNat]
  omega

/-- R91: the word of a PAD that is too long is refused with cause 3. -/
theorem decode_encode_pad_long {len : BitVec 6} (hlong : 32 < len.toNat) :
    decode (encode (.pad len)) = .error .padLength := by
  have hlen := len.isLt
  have hword := encode_pad_toNat len
  rw [decode_formatL (by omega), if_pos (by omega), if_neg (by omega)]

/-- Settles O2, command by command: the word's number gives its row, and the row's fields give the operands back. -/
theorem decodeOfEncode : Obligations.DecodeOfEncode := by
  intro i hwf
  cases i with
  | init => exact decode_formatN rfl
  | compress => exact decode_formatN rfl
  | extract => exact decode_formatN rfl
  | hexenc => exact decode_formatN rfl
  | pad len =>
    have hword := encode_pad_toNat len
    have hlegal : len.toNat ≤ 32 := hwf
    have hlen : (encode (.pad len)).toNat % 64 = len.toNat := by omega
    rw [decode_formatL (by omega), if_pos (by omega), hlen, if_pos hlegal, BitVec.ofNat_toNat, BitVec.setWidth_eq]
  | ldb idx data =>
    have hword := encode_ldb_toNat idx data
    have hidx := idx.isLt
    have hdata := data.isLt
    have hidxField : (encode (.ldb idx data)).toNat % 8192 / 256 = idx.toNat := by omega
    have hdataField : (encode (.ldb idx data)).toNat % 256 = data.toNat := by omega
    rw [decode_formatB (by omega), hidxField, hdataField]
    simp only [BitVec.ofNat_toNat, BitVec.setWidth_eq]

/-- A format N command has no operand, and its word is its opcode alone (R61). -/
theorem formatN_wellFormed_and_encode_toNat {i : Instr} {op : Nat} (hop : formatNOpcode i = some op) :
    i.WellFormed ∧ (encode i).toNat = 8192 * op := by
  cases i <;> simp only [formatNOpcode, Option.some.injEq, reduceCtorEq] at hop <;> subst hop <;> decide

/-- Settles O3: only three formats answer a command, and there the fields put together are the word's number. -/
theorem encodeOfDecode : Obligations.EncodeOfDecode := by
  intro w i hdecode
  have hw := w.isLt
  have hop : (w.toNat / 8192 = 0 ∨ w.toNat / 8192 = 7) ∨
      (w.toNat / 8192 = 1 ∨ w.toNat / 8192 = 3 ∨ w.toNat / 8192 = 4 ∨ w.toNat / 8192 = 5) ∨
      w.toNat / 8192 = 2 ∨ w.toNat / 8192 = 6 := by omega
  rcases hop with hreserved | hN | hL | hB
  · rw [decode_reservedOpcode hreserved] at hdecode
    cases hdecode
  · obtain ⟨j, hj⟩ := exists_formatNOpcode hN
    rw [decode_formatN hj] at hdecode
    split at hdecode <;> cases hdecode
    obtain ⟨hwf, hword⟩ := formatN_wellFormed_and_encode_toNat hj
    exact ⟨hwf, BitVec.eq_of_toNat_eq (by omega)⟩
  · rw [decode_formatL hL] at hdecode
    split at hdecode
    case isFalse => cases hdecode
    split at hdecode <;> cases hdecode
    have hlen : (BitVec.ofNat 6 (w.toNat % 64)).toNat = w.toNat % 64 := by simp
    refine ⟨hlen.trans_le ‹_›, BitVec.eq_of_toNat_eq ?_⟩
    rw [encode_pad_toNat, hlen]
    omega
  · rw [decode_formatB hB] at hdecode
    cases hdecode
    have hidx : (BitVec.ofNat 5 (w.toNat % 8192 / 256)).toNat = w.toNat % 8192 / 256 := by
      rw [BitVec.toNat_ofNat]; omega
    have hdata : (BitVec.ofNat 8 (w.toNat % 256)).toNat = w.toNat % 256 := by simp
    refine ⟨trivial, BitVec.eq_of_toNat_eq ?_⟩
    rw [encode_ldb_toNat, hidx, hdata]
    omega

/-- Settles O6: by the two round trips the legal words are the words of the well-formed commands. -/
theorem legalWordsExactly : Obligations.LegalWordsExactly := by
  intro w
  constructor
  · rintro ⟨i, hdecode⟩
    obtain ⟨hwf, rfl⟩ := encodeOfDecode w i hdecode
    cases i with
    | init => decide
    | compress => decide
    | extract => decide
    | hexenc => decide
    | pad len =>
      have hword := encode_pad_toNat len
      have hlegal : len.toNat ≤ 32 := hwf
      exact .inr (.inl (by omega))
    | ldb idx data =>
      have hword := encode_ldb_toNat idx data
      have hidx := idx.isLt
      have hdata := data.isLt
      exact .inr (.inr (.inr (.inr (.inr (by omega)))))
  · rintro (rfl | hpad | rfl | rfl | rfl | hldb)
    · exact ⟨.init, decodeOfEncode .init trivial⟩
    · refine ⟨.pad (BitVec.ofNat 6 (w.toNat % 64)), ?_⟩
      rw [decode_formatL (by omega), if_pos (by omega), if_pos (by omega)]
    · exact ⟨.compress, decodeOfEncode .compress trivial⟩
    · exact ⟨.extract, decodeOfEncode .extract trivial⟩
    · exact ⟨.hexenc, decodeOfEncode .hexenc trivial⟩
    · exact ⟨_, decode_formatB (by omega)⟩

/-- Settles O4: the words are fixed numbers, so decoding is evaluated on each. -/
theorem decodeSampleWords : Obligations.DecodeSampleWords := by
  unfold Obligations.DecodeSampleWords
  decide

end Sys2Proof
end

section
/-! PROOFS. What a step answers for each move of the host, and how an accepted word completes (R33, R49, R191). -/

namespace Sys2Proof.Machine

variable {s t : State}

/-! ### The host's next move -/

theorem step_nil (h : s.moves = []) : step s = engineTurn s := by
  simp only [step, advance, h]

theorem step_assertRst {rest : List HostMove} (h : s.moves = .assertRst :: rest) :
    step s = .next (s.setMoves rest).enterReset := by
  simp only [step, advance, h]

theorem step_releaseRst {rest : List HostMove} (h : s.moves = .releaseRst :: rest) :
    step s = .next (s.setMoves rest).leaveReset := by
  simp only [step, advance, h]

theorem step_read {p : ReadPort} {rest : List HostMove} (h : s.moves = .read p :: rest) :
    step s = .next (s.setMoves rest) := by
  simp only [step, advance, h]

/-- R33: a word presented to a ready engine is accepted. -/
theorem step_present_ready {w : CmdWord} {rest : List HostMove} (hready : s.cmdReady = true)
    (h : s.moves = .present w :: rest) : step s = .next ((s.setMoves rest).accept w) := by
  simp only [step, advance, h, presentWord, hready, if_true]

/-- R187: a word presented to an engine that is not ready waits, and it is the engine's turn. -/
theorem step_present_waits {w : CmdWord} {rest : List HostMove} (hready : s.cmdReady = false)
    (h : s.moves = .present w :: rest) : step s = engineTurn s := by
  simp only [step, advance, h, presentWord, hready, Bool.false_eq_true, if_false]

theorem State.cmdReady_of_busy (h : s.busy = true) : s.cmdReady = false := by simp [State.cmdReady, h]

theorem State.cmdReady_of_err (h : s.err = true) : s.cmdReady = false := by simp [State.cmdReady, h]

@[simp] theorem State.accept_busy (s : State) (w : CmdWord) : (s.accept w).busy = true := statusBusy_setBusy s.status

/-! ### Completion -/

theorem complete_ok {w : CmdWord} {i : Instr} (h : decode w = .ok i) :
    complete w s = onNext State.retire (exec i s) := by
  simp only [complete, h]

theorem complete_error {w : CmdWord} {c : Cause} (h : decode w = .error c) :
    complete w s = .next (s.raiseFault c w).retire := by
  simp only [complete, h]

theorem engineTurn_flight {w : CmdWord} (h : s.flight = some w) : engineTurn s = complete w s := by
  simp only [engineTurn, h]

/-- R164: the engine has no step in the faulted state. -/
theorem engineTurn_faulted (hflight : s.flight = none) (herr : s.err = true) : engineTurn s = .fault .faulted := by
  simp only [engineTurn, hflight, herr, if_true]

theorem engineTurn_idle (hflight : s.flight = none) (herr : s.err = false) : engineTurn s = .next s := by
  simp only [engineTurn, hflight, herr, Bool.false_eq_true, if_false]

/-- R160: the command an accepted word decodes to is legal, so it raises no fault. -/
theorem exec_decoded_keeps_status {w : CmdWord} {i : Instr} (hdecode : decode w = .ok i) (hexec : exec i s = .next t) :
    t.status = s.status ∧ t.errcmd = s.errcmd := by
  obtain ⟨hwf, -⟩ := encodeOfDecode w i hdecode
  obtain ⟨u, hu, hstatus, herrcmd⟩ := exec_next_of_wellFormed hwf s
  obtain rfl : u = t := by simpa [hu] using hexec
  exact ⟨hstatus, herrcmd⟩

/-- The engine's turn neither reads nor takes the host's moves. -/
theorem engineTurn_setMoves (s : State) (m : List HostMove) :
    engineTurn (s.setMoves m) = onNext (fun t => t.setMoves m) (engineTurn s) := by
  cases hflight : s.flight with
  | none =>
    cases herr : s.err with
    | true => rw [engineTurn_faulted hflight herr, engineTurn_faulted (s := s.setMoves m) hflight herr]; rfl
    | false => rw [engineTurn_idle hflight herr, engineTurn_idle (s := s.setMoves m) hflight herr]; rfl
  | some w =>
    rw [engineTurn_flight hflight, engineTurn_flight (s := s.setMoves m) hflight]
    cases hdecode : decode w with
    | ok i =>
      rw [complete_ok hdecode, complete_ok hdecode, exec_setMoves]
      cases exec i s <;> rfl
    | error c => rw [complete_error hdecode, complete_error hdecode]; rfl

/-- Settles O43: the engine's turn completes the word, which is to execute the command it decodes to. -/
theorem stepRunsDecodedCommand : Obligations.StepRunsDecodedCommand := by
  intro s w i rest hflight hdecode hturn
  exact (step_completes hflight hturn).trans (complete_ok hdecode)

/-- Settles O41: the turn the engine takes does not depend on the moves, so the presented word is still the first after it. -/
theorem presentedWordWaits : Obligations.PresentedWordWaits := by
  intro s w rest hready hmoves
  have hself : s = (s.setMoves []).setMoves (.present w :: rest) := by
    rw [State.setMoves_setMoves, ← hmoves, State.setMoves_self]
  calc step s
      = engineTurn s := step_present_waits hready hmoves
    _ = engineTurn ((s.setMoves []).setMoves (.present w :: rest)) := by rw [← hself]
    _ = onNext (fun t => t.setMoves (.present w :: rest)) (engineTurn (s.setMoves [])) := engineTurn_setMoves _ _
    _ = onNext (fun t => t.setMoves (.present w :: rest)) (step (s.setMoves [])) := by
        rw [step_nil (s := s.setMoves []) rfl]

/-- Settles O40: acceptance sets BUSY, which no port but `status` reads. -/
theorem acceptanceChangesBusyOnly : Obligations.AcceptanceChangesBusyOnly := by
  refine ⟨State.cmdReady_iff, fun s w rest hready hmoves => ?_⟩
  refine ⟨_, step_present_ready hready hmoves, rfl, rfl, State.cmdReady_of_busy (State.accept_busy _ w), fun p hp => ?_⟩
  cases p with
  | status => exact absurd rfl hp
  | blk idx => rfl
  | dig idx => rfl
  | hex idx => rfl
  | ctx idx => rfl
  | errcmd => rfl

/-- Settles O42: a read takes the move and no more, and a port shows its element, widened with zeros. -/
theorem readsHaveNoSideEffect : Obligations.ReadsHaveNoSideEffect := by
  refine ⟨fun s p rest hmoves => step_read hmoves, fun s k => ⟨rfl, ?_⟩, fun s k => ⟨rfl, ?_⟩, fun s k => ⟨rfl, ?_⟩,
    fun s k => ⟨rfl, rfl⟩, fun s => ⟨?_, ?_, rfl, rfl⟩⟩
  all_goals exact BitVec.toNat_setWidth_of_le (by decide)

end Sys2Proof.Machine
end

section
/-! PROOFS. The invariant of the control registers, fault entry, the faulted state and hardware reset (R25, R26, R160 to R165,
R180, R181). -/

namespace Sys2Proof.Machine

variable {s t : State}

/-! ### What the invariant says of a busy and of a faulted engine -/

/-- With a word in flight the engine has no fault and is out of reset. -/
theorem State.Inv.of_flight {w : CmdWord} (hinv : s.Inv) (hflight : s.flight = some w) :
    s.err = false ∧ s.rst = false := by
  obtain ⟨-, -, -, herr, hrst⟩ := hinv
  constructor
  · refine Bool.eq_false_of_not_eq_true fun h => ?_
    simp [(herr h).1] at hflight
  · refine Bool.eq_false_of_not_eq_true fun h => ?_
    simp [(hrst h).2] at hflight

/-- R164: with ERR = 1 nothing is in flight and `rst` is released. -/
theorem State.Inv.of_err (hinv : s.Inv) (herr : s.err = true) : s.flight = none ∧ s.rst = false := by
  obtain ⟨-, -, -, hfault, hrst⟩ := hinv
  refine ⟨(hfault herr).1, Bool.eq_false_of_not_eq_true fun h => ?_⟩
  rw [State.err, (hrst h).1] at herr
  exact absurd herr (by decide)

/-! ### The invariant along a step -/

theorem State.inv_enterReset (s : State) : s.enterReset.Inv :=
  ⟨statusReserved_zero, statusBusy_zero, fun _ => ⟨statusCause_zero, rfl⟩, fun h => absurd h (by simp [State.err]),
    fun _ => ⟨rfl, rfl⟩⟩

/-- The state after the release of an asserted `rst` (R34, R180). -/
theorem State.inv_releasedReset (s : State) : (s.enterReset.setRst false).Inv :=
  ⟨statusReserved_zero, statusBusy_zero, fun _ => ⟨statusCause_zero, rfl⟩, fun h => absurd h (by simp [State.err]),
    fun h => absurd h (by simp)⟩

theorem State.idle_releasedReset (s : State) : (s.enterReset.setRst false).Idle :=
  ⟨by simp [State.cmdReady, State.busy, State.err], rfl⟩

theorem State.inv_leaveReset (hinv : s.Inv) : s.leaveReset.Inv := by
  rw [State.leaveReset_eq]
  split
  · exact State.inv_releasedReset s
  · exact hinv

theorem State.inv_accept (hinv : s.Inv) (hready : s.cmdReady = true) (w : CmdWord) : (s.accept w).Inv := by
  obtain ⟨hreserved, -, hnoFault, -, -⟩ := hinv
  obtain ⟨-, herr, hrst⟩ := s.cmdReady_iff.mp hready
  obtain ⟨hcause, herrcmd⟩ := hnoFault herr
  have herr' : (s.accept w).err = false := (statusErr_setBusy s.status).trans herr
  refine ⟨by simpa using hreserved, by simp, fun _ => ⟨by simpa using hcause, herrcmd⟩, fun h => ?_, fun h => ?_⟩
  · rw [herr'] at h; cases h
  · rw [State.accept_rst, hrst] at h; cases h

/-- A word in flight completes with the invariant: a legal one leaves CAUSE and `ERRCMD` alone, an illegal one writes its own
cause beside itself. -/
theorem State.inv_complete {w : CmdWord} (hinv : s.Inv) (hflight : s.flight = some w) (h : complete w s = .next t) :
    t.Inv := by
  obtain ⟨herr, hrst⟩ := hinv.of_flight hflight
  obtain ⟨hreserved, -, hnoFault, -, -⟩ := hinv
  obtain ⟨hcause, herrcmd⟩ := hnoFault herr
  rcases complete_cases h with ⟨i, u, hdecode, hexec, rfl⟩ | ⟨c, hdecode, rfl⟩
  · obtain ⟨hstatus, herrcmd'⟩ := exec_decoded_keeps_status hdecode hexec
    obtain ⟨-, -, hrst', -, -⟩ := exec_keeps_handshake hexec
    have herr' : u.retire.err = false := by simpa [State.err, hstatus] using herr
    refine ⟨by simpa [hstatus] using hreserved, by simp [State.busy], fun _ => ⟨by simpa [hstatus] using hcause, ?_⟩,
      fun h => ?_, fun h => ?_⟩
    · rw [State.retire_errcmd, herrcmd', herrcmd]
    · rw [herr'] at h; cases h
    · rw [State.retire_rst, hrst', hrst] at h; cases h
  · refine ⟨by simpa using hreserved, by simp [State.busy], fun h => ?_, fun _ => ⟨rfl, ?_, ?_⟩, fun h => ?_⟩
    · simp [State.err] at h
    · simp [faultCode, hdecode]
    · simpa using causeCode_ne_zero c
    · rw [State.retire_rst, State.raiseFault_rst, hrst] at h; cases h

/-- Settles O44: each of the five things a step can do keeps the invariant; taking a move touches no control register. -/
theorem stepKeepsInvariant : Obligations.StepKeepsInvariant := by
  intro s t hinv hstep
  have hmoves : ∀ rest, (s.setMoves rest).Inv := fun _ => hinv
  rcases step_cases hstep with ⟨rest, -, rfl⟩ | ⟨rest, -, rfl⟩ | ⟨w, rest, -, hready, rfl⟩ | ⟨rest, rfl⟩ |
    ⟨w, rest, hflight, hcomplete⟩
  · exact State.inv_enterReset _
  · exact State.inv_leaveReset (hmoves rest)
  · exact State.inv_accept (hmoves rest) hready w
  · exact hmoves rest
  · exact State.inv_complete (hmoves rest) hflight hcomplete

/-- Settles O38: the registers of R34 are given as numbers. -/
theorem resetLeavesIdleEngine : Obligations.ResetLeavesIdleEngine := by
  refine ⟨⟨rfl, rfl, fun _ => ⟨rfl, rfl⟩, fun h => ?_, fun h => ?_⟩, ⟨rfl, rfl⟩, rfl, rfl, rfl, rfl⟩
  · exact absurd h (by decide)
  · exact absurd h (by decide)

/-! ### Fault entry and the faulted state (R163, R164) -/

theorem statusCause_toNat (st : BitVec 8) : (statusCause st).toNat = st.toNat / 4 % 8 := by
  simp [statusCause, BitVec.extractLsb'_toNat, Nat.shiftRight_eq_div_pow]

theorem statusReserved_toNat (st : BitVec 8) : (statusReserved st).toNat = st.toNat / 32 := by
  have hst := st.isLt
  simp only [statusReserved, BitVec.extractLsb'_toNat, Nat.shiftRight_eq_div_pow]
  omega

/-- Settles O34: an illegal word completes by `raiseFault`, and `STATUS` is then known as a number and field by field. -/
theorem faultEntry : Obligations.FaultEntry := by
  refine ⟨fun s w c rest hflight hdecode hturn => ?_, rfl, rfl, rfl,
    fun st => ⟨statusCause_toNat st, statusReserved_toNat st⟩⟩
  have hstatus : ((s.setMoves rest).raiseFault c w).retire.status = statusFault s.status c :=
    statusClearBusy_fault s.status c
  refine ⟨_, (step_completes hflight hturn).trans (complete_error hdecode), rfl, ?_, ?_, ?_, ?_, ?_⟩
  · rw [hstatus, statusFault_toNat]
  · rw [State.err, hstatus, statusErr_fault]
  · rw [hstatus, statusCause_fault]
  · rw [State.busy, hstatus, statusBusy_fault]
  · rw [hstatus, statusReserved_fault]

/-- R164: in the faulted state a step other than the assertion of `rst` leaves the six registers alone. -/
theorem step_faulted_sameRegisters (hinv : s.Inv) (herr : s.err = true) (hno : ∀ rest, s.moves ≠ .assertRst :: rest)
    (hstep : step s = .next t) : s.SameRegisters t := by
  obtain ⟨hflight, hrst⟩ := hinv.of_err herr
  rcases step_cases hstep with ⟨rest, hmoves, -⟩ | ⟨rest, -, rfl⟩ | ⟨w, rest, -, hready, -⟩ | ⟨rest, rfl⟩ |
    ⟨w, rest, hflight', -⟩
  · exact absurd hmoves (hno rest)
  · rw [State.leaveReset_eq, State.setMoves_rst, if_neg (by simp [hrst])]
    exact ⟨rfl, rfl, rfl, rfl, rfl, rfl⟩
  · rw [State.cmdReady_of_err herr] at hready; cases hready
  · exact ⟨rfl, rfl, rfl, rfl, rfl, rfl⟩
  · rw [hflight] at hflight'; cases hflight'

/-- Settles O35: a faulted engine is not ready and has nothing in flight, so it has no turn to take. -/
theorem faultedUntilReset : Obligations.FaultedUntilReset := by
  intro s hinv herr
  obtain ⟨hflight, -⟩ := hinv.of_err herr
  have hready := State.cmdReady_of_err herr
  have hstuck := engineTurn_faulted hflight herr
  exact ⟨hready, fun hmoves => (step_nil hmoves).trans hstuck,
    fun w rest hmoves => (step_present_waits hready hmoves).trans hstuck, fun p rest hmoves => step_read hmoves,
    fun t hno hstep => step_faulted_sameRegisters hinv herr hno hstep⟩

/-- Settles O36: any other step keeps `STATUS`, and ERR is a bit of it. -/
theorem errClearedByResetOnly : Obligations.ErrClearedByResetOnly := by
  intro s t hinv hstep herr hcleared
  by_contra hno
  obtain ⟨-, -, -, -, hstatus, -⟩ := step_faulted_sameRegisters hinv herr (not_exists.mp hno) hstep
  rw [State.err, hstatus, ← State.err, herr] at hcleared
  cases hcleared

/-- R26: from an engine without a fault, a step that changes `ERRCMD` is the fault of the word in flight. -/
theorem step_errcmd_changed (hinv : s.Inv) (herr : s.err = false) (hstep : step s = .next t) (hne : t.errcmd ≠ s.errcmd) :
    ∃ w c, s.flight = some w ∧ decode w = .error c ∧ t.errcmd = w ∧ t.err = true := by
  obtain ⟨-, -, hnoFault, -, -⟩ := hinv
  obtain ⟨-, hzero⟩ := hnoFault herr
  rcases step_cases hstep with ⟨rest, -, rfl⟩ | ⟨rest, -, rfl⟩ | ⟨w, rest, -, -, rfl⟩ | ⟨rest, rfl⟩ |
    ⟨w, rest, hflight, hcomplete⟩
  · exact absurd hzero.symm hne
  · rw [State.leaveReset_eq] at hne
    split at hne
    · exact absurd hzero.symm hne
    · exact absurd rfl hne
  · exact absurd rfl hne
  · exact absurd rfl hne
  · rcases complete_cases hcomplete with ⟨i, u, hdecode, hexec, rfl⟩ | ⟨c, hdecode, rfl⟩
    · exact absurd (exec_decoded_keeps_status hdecode hexec).2 hne
    · exact ⟨w, c, hflight, hdecode, rfl, by simp [State.err]⟩

/-- Settles O37: the invariant gives 0 while ERR is 0; from there `ERRCMD` is written by the fault alone, and with ERR = 1
only the assertion of `rst` writes it. -/
theorem errcmdWrittenByFaultOrReset : Obligations.ErrcmdWrittenByFaultOrReset := by
  intro s t hinv hstep
  refine ⟨fun herr => ?_, fun hne => ?_, fun w c rest hflight hdecode hturn => ?_⟩
  · obtain ⟨-, -, hnoFault, -, -⟩ := stepKeepsInvariant s t hinv hstep
    exact (hnoFault herr).2
  · cases herr : s.err with
    | false => exact .inr ⟨rfl, step_errcmd_changed hinv herr hstep hne⟩
    | true =>
      by_cases hassert : ∃ rest, s.moves = .assertRst :: rest
      · obtain ⟨rest, hmoves⟩ := hassert
        obtain rfl : _ = t := by simpa [step_assertRst hmoves] using hstep
        exact .inl ⟨rest, hmoves, rfl⟩
      · obtain ⟨-, -, -, -, -, hkept⟩ := step_faulted_sameRegisters hinv herr (not_exists.mp hassert) hstep
        exact absurd hkept hne
  · rw [step_completes hflight hturn, complete_error hdecode] at hstep
    cases hstep
    rfl

/-! ### Hardware reset (R180, R181) -/

/-- Settles O39: both edges are computed; the release finds `rst` asserted. -/
theorem hardwareReset : Obligations.HardwareReset := by
  intro s rest hmoves
  have hrelease : (s.setMoves (.releaseRst :: rest)).enterReset.moves = .releaseRst :: rest := rfl
  refine ⟨_, _, step_assertRst hmoves, step_releaseRst hrelease, rfl, rfl, rfl, by simp [State.cmdReady], rfl, ?_⟩
  rw [State.leaveReset_eq, if_pos (by simp)]
  exact ⟨rfl, rfl, State.idle_releasedReset _, State.inv_releasedReset _, rfl, rfl⟩

/-! ### What a step leaves alone -/

/-- Settles O45: a step writes the configuration in none of its cases, and no command does. -/
theorem wiringNeverChanges : Obligations.WiringNeverChanges := by
  have byExec : ∀ (i : Instr) (s t : State), exec i s = .next t → t.cfg = s.cfg := by
    intro i s t hexec
    obtain ⟨-, -, -, -, hcfg⟩ := exec_keeps_handshake hexec
    exact hcfg
  refine ⟨fun s t hstep => ?_, byExec⟩
  rcases step_cases hstep with ⟨rest, -, rfl⟩ | ⟨rest, -, rfl⟩ | ⟨w, rest, -, -, rfl⟩ | ⟨rest, rfl⟩ |
    ⟨w, rest, -, hcomplete⟩
  · rfl
  · rw [State.leaveReset_eq]
    split <;> rfl
  · rfl
  · rfl
  · rcases complete_cases hcomplete with ⟨i, u, -, hexec, rfl⟩ | ⟨c, -, rfl⟩
    · exact byExec i (s.setMoves rest) u hexec
    · rfl

/-- R20: which commands write each data register. -/
theorem exec_writers {i : Instr} (hexec : exec i s = .next t) :
    (t.ctx ≠ s.ctx → i = .init ∨ i = .compress) ∧
    (t.blk ≠ s.blk → (∃ len, i = .pad len) ∨ ∃ idx data, i = .ldb idx data) ∧
    (t.dig ≠ s.dig → i = .extract) ∧ (t.hex ≠ s.hex → i = .hexenc) := by
  cases i with
  | pad len =>
    rcases Nat.lt_or_ge 32 len.toNat with hlen | hlen
    · rw [exec_pad_long hlen] at hexec; cases hexec; simp
    · rw [exec_pad_legal hlen] at hexec; cases hexec; simp
  | init => rw [exec_init] at hexec; cases hexec; simp
  | compress => rw [exec_compress] at hexec; cases hexec; simp
  | extract => rw [exec_extract] at hexec; cases hexec; simp
  | hexenc => rw [exec_hexenc] at hexec; cases hexec; simp
  | ldb idx data => rw [exec_ldb] at hexec; cases hexec; simp

/-- Settles O46: outside the two edges of `rst` only a completion writes data registers, by the command it decodes. -/
theorem registersHaveTheirWriters : Obligations.RegistersHaveTheirWriters := by
  intro s t hstep
  rcases step_cases hstep with ⟨rest, hmoves, -⟩ | ⟨rest, hmoves, -⟩ | ⟨w, rest, -, -, rfl⟩ | ⟨rest, rfl⟩ |
    ⟨w, rest, hflight, hcomplete⟩
  · exact .inl ⟨rest, .inl hmoves⟩
  · exact .inl ⟨rest, .inr hmoves⟩
  · exact .inr (by simp)
  · exact .inr (by simp)
  · rcases complete_cases hcomplete with ⟨i, u, hdecode, hexec, rfl⟩ | ⟨c, -, rfl⟩
    · obtain ⟨hctx, hblk, hdig, hhex⟩ := exec_writers hexec
      refine .inr ⟨fun h => ⟨w, hflight, ?_⟩, fun h => ⟨w, hflight, ?_⟩, fun h => ⟨w, hflight, ?_⟩,
        fun h => ⟨w, hflight, ?_⟩⟩
      · simpa [hdecode] using hctx h
      · simpa [hdecode] using hblk h
      · simpa [hdecode] using hdig h
      · simpa [hdecode] using hhex h
    · exact .inr (by simp)

end Sys2Proof.Machine
end

section
/-! PROOFS. Commands one after another, and the runs of a host that presents them (R49, R192). -/

namespace Sys2Proof.Machine

variable {s t : State}

/-! ### Lists of commands -/

theorem runCmds_nil (s : State) : runCmds [] s = .next s := rfl

theorem runCmds_cons {i : Instr} (is : List Instr) (h : exec i s = .next t) : runCmds (i :: is) s = runCmds is t := by
  simp only [runCmds, h]

theorem runCmds_append {is : List Instr} (js : List Instr) (h : runCmds is s = .next t) :
    runCmds (is ++ js) s = runCmds js t := by
  induction is generalizing s with
  | nil => cases h; rfl
  | cons i is ih =>
    cases hexec : exec i s with
    | next u => rw [runCmds_cons is hexec] at h; rw [List.cons_append, runCmds_cons _ hexec, ih h]
    | fault r => simp [runCmds, hexec] at h
    | refused r => simp [runCmds, hexec] at h

/-! ### One legal command presented to an idle engine -/

/-- A legal command leaves an idle engine idle. -/
theorem State.Idle.of_exec {i : Instr} (hwf : i.WellFormed) (hidle : s.Idle) (hexec : exec i s = .next t) :
    t.Idle ∧ t.status = s.status := by
  obtain ⟨hready, hflight⟩ := hidle
  obtain ⟨u, hu, hstatus, -⟩ := exec_next_of_wellFormed hwf s
  obtain rfl : u = t := by simpa [hu] using hexec
  obtain ⟨hflight', -, hrst, -, -⟩ := exec_keeps_handshake hexec
  refine ⟨⟨?_, hflight'.trans hflight⟩, hstatus⟩
  simpa only [State.cmdReady, State.busy, State.err, hstatus, hrst] using hready

/-- R49: an accepted legal command completes as if it had been executed on the idle engine: BUSY and the command in flight,
which acceptance wrote, are back as they were. -/
theorem engineTurn_accept {i : Instr} (hwf : i.WellFormed) (hidle : s.Idle) (hexec : exec i s = .next t) :
    engineTurn (s.accept (encode i)) = .next t := by
  obtain ⟨⟨hready, hflight⟩, hstatus⟩ := hidle.of_exec hwf hexec
  obtain ⟨hbusy, -, -⟩ := t.cmdReady_iff.mp hready
  rw [engineTurn_flight (s.accept_flight _), complete_ok (decodeOfEncode i hwf), exec_accept i _ hwf, hexec, ← hstatus]
  have hretire : statusClearBusy (statusSetBusy t.status) = t.status := statusClearBusy_setBusy _ hbusy
  calc onNext State.retire (.next ((t.setStatus (statusSetBusy t.status)).setFlight (some (encode i))))
      = .next ((t.setStatus (statusClearBusy (statusSetBusy t.status))).setFlight none) := rfl
    _ = .next t := by rw [hretire, State.setStatus_self, ← hflight, State.setFlight_self]

/-- Two steps of a run. -/
theorem run_two {u : State} (k : Nat) (hfirst : step s = .next u) (hsecond : step u = .next t) :
    core.run (k + 2) s = core.run k t :=
  (run_next (k + 1) hfirst).trans (run_next k hsecond)

/-- R49: a legal command presented to an idle engine and waited for takes two steps, which execute it. -/
theorem run_present_wait {i : Instr} (hwf : i.WellFormed) (hidle : s.Idle) (hexec : exec i s = .next t) (k : Nat)
    (rest : List HostMove) :
    core.run (k + 2) (s.setMoves (.present (encode i) :: .wait :: rest)) = core.run k (t.setMoves rest) := by
  have hturn : engineTurn ((s.setMoves rest).accept (encode i)) = .next (t.setMoves rest) :=
    engineTurn_accept hwf hidle (by rw [exec_setMoves, hexec]; rfl)
  exact run_two k (step_present_ready hidle.1 rfl) ((step_completes (State.accept_flight _ _) (.inl rfl)).trans
    ((engineTurn_flight (State.accept_flight _ _)).symm.trans hturn))

/-- Settles O47, by induction on the commands. -/
theorem runIsComposition : Obligations.RunIsComposition := by
  intro is
  induction is with
  | nil => exact fun s rest _ _ => ⟨s, rfl, rfl⟩
  | cons i is ih =>
    intro s rest hwf hidle
    obtain ⟨hi, his⟩ := List.forall_mem_cons.mp hwf
    obtain ⟨u, hexec, -⟩ := exec_next_of_wellFormed hi s
    obtain ⟨t, hrun, hsteps⟩ := ih u rest his (hidle.of_exec hi hexec).1
    refine ⟨t, (runCmds_cons is hexec).trans hrun, ?_⟩
    exact (run_present_wait hi hidle hexec (2 * is.length) _).trans hsteps

/-! ### A host that presents words without waiting -/

/-- R187: while the engine is not ready, a host that has only words to present leaves it its turn. -/
theorem step_presentAll_waits {is : List Instr} (hready : s.cmdReady = false) (hmoves : s.moves = presentAll is) :
    step s = engineTurn s := by
  cases is with
  | nil => exact step_nil hmoves
  | cons i is => exact step_present_waits hready hmoves

/-- A legal command that a host with only words to present has presented first takes two steps, which execute it. -/
theorem run_presentAll_cons {i : Instr} {is : List Instr} (hwf : i.WellFormed) (hidle : s.Idle) (hexec : exec i s = .next t)
    (hmoves : s.moves = presentAll (i :: is)) (k : Nat) :
    core.run (k + 2) s = core.run k (t.setMoves (presentAll is)) := by
  have hturn : engineTurn ((s.setMoves (presentAll is)).accept (encode i)) = .next (t.setMoves (presentAll is)) :=
    engineTurn_accept hwf hidle (by rw [exec_setMoves, hexec]; rfl)
  have hbusy : ((s.setMoves (presentAll is)).accept (encode i)).cmdReady = false :=
    State.cmdReady_of_busy (State.accept_busy _ _)
  exact run_two k (step_present_ready hidle.1 hmoves) ((step_presentAll_waits hbusy rfl).trans hturn)

/-- Settles O48, by induction on the commands: each takes its word from the host's moves and keeps `STATUS`. -/
theorem legalRunEndsNormally : Obligations.LegalRunEndsNormally := by
  intro is
  induction is with
  | nil => exact fun s _ hidle hstatus hmoves => ⟨s, rfl, hmoves, hidle.2, hstatus⟩
  | cons i is ih =>
    intro s hwf hidle hstatus hmoves
    obtain ⟨hi, his⟩ := List.forall_mem_cons.mp hwf
    obtain ⟨u, hexec, -⟩ := exec_next_of_wellFormed hi s
    obtain ⟨hidle', hstatus'⟩ := hidle.of_exec hi hexec
    obtain ⟨t, hrun, hend⟩ := ih (u.setMoves (presentAll is)) his hidle' (hstatus'.trans hstatus) rfl
    exact ⟨t, (run_presentAll_cons hi hidle hexec hmoves (2 * is.length)).trans hrun, hend⟩

/-! ### A faulting word -/

/-- The faulted state that accepting and completing the illegal word `w` leads to (R163). -/
def State.faultedBy (s : State) (w : CmdWord) (c : Cause) : State := ((s.accept w).raiseFault c w).retire

@[simp] theorem State.faultedBy_status (s : State) (w : CmdWord) (c : Cause) :
    (s.faultedBy w c).status = statusFault (statusSetBusy s.status) c := statusClearBusy_fault _ c

theorem State.faultedBy_err (s : State) (w : CmdWord) (c : Cause) : (s.faultedBy w c).err = true := by
  simp [State.err]

/-- An illegal word presented to a ready engine, with another word behind it, takes two steps into the faulted state. -/
theorem step_present_illegal {w w' : CmdWord} {c : Cause} {rest : List HostMove} (hready : s.cmdReady = true)
    (hdecode : decode w = .error c) (hmoves : s.moves = .present w :: .present w' :: rest) :
    ∃ u, step s = .next u ∧ step u = .next ((s.setMoves (.present w' :: rest)).faultedBy w c) := by
  have hbusy : ((s.setMoves (.present w' :: rest)).accept w).cmdReady = false :=
    State.cmdReady_of_busy (State.accept_busy _ w)
  refine ⟨_, step_present_ready hready hmoves, (step_present_waits hbusy rfl).trans ?_⟩
  exact (engineTurn_flight (State.accept_flight _ w)).trans (complete_error hdecode)

/-- Settles O49: the second word waits while the first faults, and then the engine has no step. -/
theorem runStopsAfterFault : Obligations.RunStopsAfterFault := by
  intro s w w' c rest hidle hdecode hmoves
  obtain ⟨hready, -⟩ := hidle
  obtain ⟨u, haccept, hfault⟩ := step_present_illegal hready hdecode hmoves
  have herr := (s.setMoves (.present w' :: rest)).faultedBy_err w c
  have hstuck : step ((s.setMoves (.present w' :: rest)).faultedBy w c) = .fault .faulted :=
    (step_present_waits (State.cmdReady_of_err herr) rfl).trans (engineTurn_faulted rfl herr)
  refine ⟨⟨_, run_two 0 haccept hfault, ?_⟩, fun n => (run_two (n + 1) haccept hfault).trans (run_fault n hstuck)⟩
  simp [State.faultedBy, State.err]

end Sys2Proof.Machine
end

section
/-! PROOFS. INIT, LDB and the remaining properties of PAD (R80, R81, R85 to R92). -/

namespace Sys2Proof.Machine

/-! ### INIT -/

/-- Settles O7: INIT is one write of `CTX`. -/
theorem initWritesConstants : Obligations.InitWritesConstants :=
  fun s => ⟨s.setCtx s.cfg.iv, exec_init, rfl, fun _ => rfl⟩

/-- Settles O8: the constants written come from the configuration alone, so the second write repeats the first. -/
theorem initForgetsThePast : Obligations.InitForgetsThePast := by
  refine ⟨fun s => ?_, fun s s' hcfg => ⟨_, _, exec_init, exec_init, hcfg ▸ rfl⟩⟩
  rw [runCmds_cons _ exec_init, runCmds_cons _ exec_init, runCmds_cons _ exec_init, State.setCtx_setCtx, State.setCtx_cfg]

/-! ### LDB -/

/-- R86: the last write to an index wins. -/
theorem State.writeBlk_writeBlk_same (s : State) (idx : BitVec 5) (d d' : Byte) :
    (s.writeBlk idx d).writeBlk idx d' = s.writeBlk idx d' := by
  simp [State.writeBlk]

/-- R86: writes to different indices commute. -/
theorem State.writeBlk_comm (s : State) {idx idx' : BitVec 5} (d d' : Byte) (hne : idx ≠ idx') :
    (s.writeBlk idx d).writeBlk idx' d' = (s.writeBlk idx' d').writeBlk idx d := by
  have hne' : idx.toNat ≠ idx'.toNat := fun h => hne (BitVec.eq_of_toNat_eq h)
  simp [State.writeBlk, Vector.set_comm d d' hne']

/-- Settles O9: LDB is one `writeBlk`. -/
theorem ldbWritesOneByte : Obligations.LdbWritesOneByte := by
  refine ⟨fun s idx data => ⟨s.writeBlk idx data, exec_ldb idx data, rfl, ?_, fun k hk => ?_⟩, fun s idx d d' => ?_,
    fun s idx idx' d d' hne => ?_⟩
  · exact (getElem_set_blk s.blk idx idx data).trans (if_pos rfl)
  · exact (getElem_set_blk s.blk idx k data).trans (if_neg hk)
  · simp only [runCmds_cons _ (exec_ldb _ _), State.writeBlk_writeBlk_same]
  · simp only [runCmds_cons _ (exec_ldb _ _), State.writeBlk_comm s d d' hne]

/-! ### PAD -/

theorem padBlock_full (blk : Block) : padBlock blk 32 = blk := dif_neg (Nat.lt_irrefl 32)

/-- R89: PAD 32 answers the state it found. -/
theorem exec_pad_full (s : State) : exec (.pad 32) s = .next s := by
  rw [exec_pad_legal (by decide)]
  exact congrArg (fun b => Host.Outcome.next (s.setBlk b)) (padBlock_full s.blk)

/-- Settles O11: PAD 32 is the command of its word, and executing it is the identity. -/
theorem padFullChangesNothing : Obligations.PadFullChangesNothing := by
  have hlegal : (Instr.pad 32).WellFormed := by decide
  refine ⟨decodeOfEncode (.pad 32) hlegal, exec_pad_full, fun s => runCmds_cons _ (exec_pad_full s),
    fun s rest hidle => ?_⟩
  exact run_present_wait hlegal hidle (exec_pad_full s) 0 rest

/-- Settles O13: decoding refuses the word, and the command raises the same fault (log 12). -/
theorem padTooLongFaults : Obligations.PadTooLongFaults := by
  intro len hlong
  refine ⟨decode_encode_pad_long hlong, fun s => ⟨_, exec_pad_long hlong, rfl, ?_, ?_, ?_, rfl⟩⟩
  · simp [State.busy]
  · simp [State.err]
  · simp [causeCode]

/-- R92 (d): the marker is the last byte of a padded short chunk that is not zero. -/
theorem padBlock_marker (blk : Block) {L : Nat} (hL : L < 32) :
    (padBlock blk L)[L] = 0x80#8 ∧ ∀ k : Fin 32, L < k.val → (padBlock blk L)[k] = 0x00#8 := by
  refine ⟨?_, fun k hk => ?_⟩
  · rw [getElem_padBlock_short blk hL hL, if_neg (Nat.lt_irrefl L), if_pos rfl]
  · exact (getElem_padBlock_short blk hL k.isLt).trans (by rw [if_neg hk.not_gt, if_neg hk.ne'])

/-- A padded short chunk is no padded chunk of a greater length: its byte there is zero, where the other has the marker. -/
theorem padBlock_ne_of_lt (b b' : Block) {L L' : Nat} (hL' : L' < 32) (hlt : L < L') : padBlock b L ≠ padBlock b' L' := by
  intro heq
  have hzero := (padBlock_marker b (hlt.trans hL')).2 ⟨L', hL'⟩ hlt
  have hmarker := (padBlock_marker b' hL').1
  rw [← heq] at hmarker
  exact absurd (hmarker.symm.trans hzero) (by decide)

theorem padBlock_idempotent (b : Block) (L : Nat) : padBlock (padBlock b L) L = padBlock b L :=
  padBlock_eq_of_prefix_eq fun k hk hkL => by rw [getElem_padBlock, if_pos hkL, ite_self]

/-- Settles O14: each property is read off the bytes of the padded block. -/
theorem padProperties : Obligations.PadProperties := by
  refine ⟨fun b L _ => padBlock_idempotent b L, fun b b' L hL hbytes => ?_, fun b b' L L' hL hL' heq => ?_,
    fun b L hL => ⟨?_, (padBlock_marker b hL).2⟩, fun s s' len hlen hblk => ?_⟩
  · rw [padBlock_full]
    ext1 k hk
    exact (hbytes ⟨k, hk⟩).trans (getElem_padBlock_short b hL hk).symm
  · rcases lt_trichotomy L L' with hlt | rfl | hgt
    · exact absurd heq (padBlock_ne_of_lt b b' hL' hlt)
    · rfl
    · exact absurd heq.symm (padBlock_ne_of_lt b' b hL hgt)
  · rw [(padBlock_marker b hL).1]
    decide
  · exact ⟨padBlock s.blk len.toNat, exec_pad_legal hlen, hblk ▸ exec_pad_legal hlen⟩

end Sys2Proof.Machine
end

section
/-! PROOFS. Rotations as numbers and as movements of bits (R11). -/

namespace Sys2Proof.Machine

/-- The two parts of a rotation have no bit in common, so their sum is their union. -/
theorem shiftLeft_and_shiftRight (x : Word) {n : Nat} (hn : n ≤ 32) : (x <<< n) &&& (x >>> (32 - n)) = 0#32 := by
  ext i hi
  rw [BitVec.getElem_and, BitVec.getElem_shiftLeft, BitVec.getElem_ushiftRight]
  by_cases hin : i < n
  · simp [hin]
  · simp [BitVec.getLsbD_of_ge x (32 - n + i) (by omega)]

theorem rotl_toNat (x : Word) {n : Nat} (hn : n ≤ 32) :
    (rotl x n).toNat = x.toNat * 2 ^ n % 2 ^ 32 + x.toNat / 2 ^ (32 - n) := by
  rw [rotl, BitVec.toNat_add_of_and_eq_zero (shiftLeft_and_shiftRight x hn)]
  simp [Nat.shiftLeft_eq, Nat.shiftRight_eq_div_pow]

/-- Bit i of a word is bit i + n, modulo 32, of the word rotated left by n. -/
theorem rotl_getLsbD (x : Word) {n i : Nat} (hn : n ≤ 32) (hi : i < 32) :
    (rotl x n).getLsbD ((i + n) % 32) = x.getLsbD i := by
  rw [rotl, BitVec.add_eq_or_of_and_eq_zero _ _ (shiftLeft_and_shiftRight x hn), BitVec.getLsbD_or,
    BitVec.getLsbD_shiftLeft, BitVec.getLsbD_ushiftRight]
  rcases Nat.lt_or_ge (i + n) 32 with hlow | hwrap
  · have hmod : (i + n) % 32 = i + n := Nat.mod_eq_of_lt hlow
    simp [hmod, hlow, BitVec.getLsbD_of_ge x (32 - n + (i + n)) (by omega)]
  · have hmod : (i + n) % 32 = i + n - 32 := by omega
    have hback : 32 - n + (i + n - 32) = i := by omega
    have hbelow : i + n - 32 < n := by omega
    simp [hmod, hback, hbelow]

/-- To the right by n is to the left by the rest of the word. -/
theorem rotr_eq_rotl (x : Word) {n : Nat} (hn : n ≤ 32) : rotr x n = rotl x (32 - n) := by
  rw [rotr, rotl, Nat.sub_sub_self hn, BitVec.add_comm]

theorem rotl_zero (x : Word) : rotl x 0 = x := by
  apply BitVec.eq_of_toNat_eq
  have hx := x.isLt
  rw [rotl_toNat x (Nat.zero_le 32)]
  omega

theorem rotr_zero (x : Word) : rotr x 0 = x := by
  apply BitVec.eq_of_toNat_eq
  rw [rotr_eq_rotl x (Nat.zero_le 32), rotl_toNat x (Nat.sub_le 32 0)]
  omega

/-- Settles O1: what holds of a left rotation by 0 to 32 gives the right rotations by 0 to 31. -/
theorem rotationsMoveBits : Obligations.RotationsMoveBits := by
  intro x n hn
  refine ⟨rotl_zero x, rotr_zero x, fun _ => rotl_toNat x hn.le, fun _ => ?_, fun i hi => rotl_getLsbD x hn.le hi,
    fun i hi => ?_, ?_⟩
  · rw [rotr_eq_rotl x hn.le, rotl_toNat x (Nat.sub_le 32 n), Nat.sub_sub_self hn.le, Nat.add_comm]
  · have hindex : i + 32 - n = i + (32 - n) := by omega
    rw [rotr_eq_rotl x hn.le, hindex]
    exact rotl_getLsbD x (Nat.sub_le 32 n) hi
  · rcases Nat.eq_zero_or_pos n with rfl | hpos
    · exact (rotr_zero x).trans (rotl_zero x).symm
    · rw [rotr_eq_rotl x hn.le, Nat.mod_eq_of_lt (by omega)]

end Sys2Proof.Machine
end

section
/-! PROOFS. COMPRESS: the scalar K, Round 2, the fold-back and the whole command (R107, R115 to R125). -/

namespace Sys2Proof.Machine

/-! ### Temper function Z (R107) and what is fixed for an iteration (R118 to R120) -/

/-- Settles O17: the four steps are the definition's own grouping, and the rule's examples are evaluated. -/
theorem temperFunctionZ : Obligations.TemperFunctionZ :=
  ⟨fun _ => ⟨_, _, _, rfl, rfl, rfl, rfl⟩, by decide, by decide⟩

theorem oddBit_eq (k : Word) : oddBit k = (k.toNat % 2 == 1) := by
  rw [oddBit, BitVec.getLsbD, Nat.testBit_zero]
  rfl

/-- Settles O20: J is a function of the eight values of i, on which it is evaluated. -/
theorem parityAndSecondIndex : Obligations.ParityAndSecondIndex :=
  ⟨oddBit_eq, by decide, by decide, by decide⟩

/-- Settles O22: the selectors are read off their definitions. -/
theorem nestedTemperValue : Obligations.NestedTemperValue :=
  ⟨fun _ _ _ _ _ _ => rfl, fun _ _ _ _ _ => ⟨rfl, rfl, rfl, rfl, fun _ => rfl⟩,
    fun _ _ _ _ => ⟨rfl, rfl, rfl, fun _ => rfl⟩, fun _ _ => ⟨rfl, fun _ => rfl⟩⟩

/-- A loop that adds words known as numbers adds the numbers. -/
theorem foldl_add_ofNat (f : Fin 8 → Nat) (l : List (Fin 8)) (a : Nat) :
    l.foldl (fun k n => k + BitVec.ofNat 32 (f n)) (BitVec.ofNat 32 a) = BitVec.ofNat 32 (a + (l.map f).sum) := by
  induction l generalizing a with
  | nil => rfl
  | cons n l ih => rw [List.foldl_cons, ← BitVec.ofNat_add, ih, List.map_cons, List.sum_cons, Nat.add_assoc]

/-- R118: K is the sum of the remainders, modulo 2^32. -/
theorem scalarK_toNat (cfg : Cfg) (i : Fin 8) (wk : Words) :
    (scalarK cfg i wk).toNat = (∑ n : Fin 8, wk[n].toNat % cfg.r2mod[n].modulus i) % 2 ^ 32 := by
  have hloop := foldl_add_ofNat (fun n => wk[n].toNat % cfg.r2mod[n].modulus i) idx8 0
  have hsum : (idx8.map fun n => wk[n].toNat % cfg.r2mod[n].modulus i).sum =
      ∑ n : Fin 8, wk[n].toNat % cfg.r2mod[n].modulus i := (Fin.sum_univ_def _).symm
  rw [hsum, Nat.zero_add] at hloop
  exact (congrArg BitVec.toNat hloop).trans (BitVec.toNat_ofNat _ _)

/-- Settles O19: no modulus is 0, so each remainder is below its modulus. -/
theorem scalarKIsSumOfRemainders : Obligations.ScalarKIsSumOfRemainders := by
  intro cfg i wk
  refine ⟨fun n => cfg.r2mod[n].sound i, scalarK_toNat cfg i wk, ?_⟩
  rw [scalarK_toNat]
  refine (Nat.mod_le _ _).trans (Finset.sum_le_sum fun n _ => ?_)
  obtain ⟨hpos, -⟩ := cfg.r2mod[n].sound i
  exact Nat.le_sub_one_of_lt (Nat.mod_lt _ (Nat.pos_of_ne_zero hpos))

/-! ### Round 2 (R115, R117, R121, R122) -/

section Iteration
variable (cfg : Cfg) (u wk : Words) (i : Fin 8)

/-- The working words and `PRE` after the first n targets of iteration i. -/
def round2Work (n : Nat) : Work := (idx8.take n).foldl (round2Target cfg (iter2Of cfg u wk i)) { wk := wk, pre := wk }

theorem round2Work_succ (t : Fin 8) :
    round2Work cfg u wk i (t.val + 1) = round2Target cfg (iter2Of cfg u wk i) (round2Work cfg u wk i t.val) t :=
  foldl_take_succ _ _ t

/-- R117: target t meets the new words below it and the old ones at and above it. -/
theorem round2Work_wk (t : Fin 8) :
    (round2Work cfg u wk i t.val).wk = feedForward (round2Iter cfg u wk i) wk t :=
  foldl_take_eq_feedForward (round2Target cfg (iter2Of cfg u wk i)) Work.wk _ (fun _ _ => rfl) { wk := wk, pre := wk } t

/-- R122: `PRE` holds the values before rotation of the targets done, and the words at the start of the iteration for the
others. -/
theorem round2Work_pre {n : Nat} (hn : n ≤ 8) (k : Fin 8) :
    (round2Work cfg u wk i n).pre[k] =
      if k.val < n then preRotation cfg u wk (round2Iter cfg u wk i) i k else wk[k] := by
  have hnoted := getElem_foldl_set (round2Target cfg (iter2Of cfg u wk i)) Work.pre
    (fun m t => nestedWord cfg (iter2Of cfg u wk i) m.wk t) (fun _ _ => rfl) { wk := wk, pre := wk } n hn k
  rw [preRotation, ← round2Work_wk]
  exact hnoted

/-- R115, R121, R122: word t after iteration i. The value its rotate-left branch finds in `PRE` is the new one of word
`P_LSRC[t]` up to and with word t itself, which has just been noted. -/
theorem getElem_round2Iter (t : Fin 8) :
    (round2Iter cfg u wk i)[t] =
      if oddBit (scalarK cfg i wk) then rotr (preRotation cfg u wk (round2Iter cfg u wk i) i t) (rrAmount t)
      else rotl (if cfg.lsrc[t] ≤ t then preRotation cfg u wk (round2Iter cfg u wk i) i cfg.lsrc[t] else wk[cfg.lsrc[t]])
        (rlAmount t) := by
  have hwritten : (round2Iter cfg u wk i)[t] = rotateWord cfg (scalarK cfg i wk) (round2Work cfg u wk i (t.val + 1)).pre t
      (nestedWord cfg (iter2Of cfg u wk i) (round2Work cfg u wk i t.val).wk t) := by
    rw [round2Work_succ]
    exact getElem_foldl_idx8_set (round2Target cfg (iter2Of cfg u wk i)) Work.wk _ (fun _ _ => rfl) _ t
  rw [hwritten, rotateWord, round2Work_wk, round2Work_pre cfg u wk i t.isLt]
  simp only [Nat.lt_succ_iff, Fin.val_fin_le]
  rfl

end Iteration

/-- Settles O21: the bit O is the parity of K. -/
theorem round2FeedsForward : Obligations.Round2FeedsForward := by
  intro cfg u wk i t
  have hword := getElem_round2Iter cfg u wk i t
  simp only [oddBit_eq, beq_iff_eq] at hword
  exact hword

/-- Settles O23: word t itself has been noted when it is rotated. -/
theorem regularWiringRotatesOwnValue : Obligations.RegularWiringRotatesOwnValue := by
  intro cfg hregular u wk i t
  have hown : cfg.lsrc[t] ≤ t := (hregular t).le
  rw [getElem_round2Iter, if_pos hown, hregular t]

/-! ### Fold-back and the whole command (R124, R125) -/

/-- R124: the eight sums and rotations. -/
theorem foldBack_eq (ctx wk : Words) : foldBack ctx wk =
    #v[rotr (ctx[0] + wk[0]) 7, rotl (ctx[1] + wk[1]) 5, rotr (ctx[2] + wk[2]) 3, rotl (ctx[3] + wk[3]) 2,
       rotr (ctx[4] + wk[4]) 19, rotl (ctx[5] + wk[5]) 17, rotr (ctx[6] + wk[6]) 13, rotl (ctx[7] + wk[7]) 11] := by
  have hwords : ∀ n : Fin 8, (foldBack ctx wk)[n] = foldWord n ctx[n] wk[n] := fun n => getElem_foldBack ctx wk n n.isLt
  ext1 n hn
  interval_cases n
  exacts [hwords 0, hwords 1, hwords 2, hwords 3, hwords 4, hwords 5, hwords 6, hwords 7]

/-- Settles O24: COMPRESS writes the fold-back. -/
theorem foldBackAmounts : Obligations.FoldBackAmounts :=
  fun s => ⟨_, _, exec_compress, rfl, foldBack_eq s.ctx _⟩

/-- The working words of Round 2 after its first n iterations. -/
def round2After (cfg : Cfg) (u wk : Words) (n : Nat) : Words := (idx8.take n).foldl (round2Iter cfg u) wk

theorem round2After_zero (cfg : Cfg) (u wk : Words) : round2After cfg u wk 0 = wk := rfl

theorem round2After_succ (cfg : Cfg) (u wk : Words) (i : Fin 8) :
    round2After cfg u wk (i.val + 1) = round2Iter cfg u (round2After cfg u wk i.val) i :=
  foldl_take_succ _ wk i

theorem round2After_eight (cfg : Cfg) (u wk : Words) : round2After cfg u wk 8 = round2 cfg u wk :=
  (foldl_idx8 _ wk).symm

/-- Settles O25: the sequences are those of the working words after each iteration of the two rounds. -/
theorem compressRunsBothRounds : Obligations.CompressRunsBothRounds := by
  intro s
  have hrounds : compressWords s.cfg s.ctx s.blk = foldBack s.ctx
      (round2After s.cfg (loadWords s.blk) (round1After s.cfg (loadWords s.blk) s.ctx 8) 8) := by
    rw [round2After_eight, round1After_eight, compressWords]
  exact ⟨s.setCtx _, exec_compress, rfl, round1After s.cfg (loadWords s.blk) s.ctx, round2After s.cfg (loadWords s.blk) _,
    round1After_zero _ _ _, round1After_succ _ _ _, round2After_zero _ _ _, round2After_succ _ _ _, hrounds⟩

end Sys2Proof.Machine
end

section
/-! PROOFS. Byte orders: the block load (R101), the digest as a number (R141, R142) and its hex string (R143 to R146). -/

namespace Sys2Proof.Machine

/-! ### Words and bytes as numbers -/

/-- Appending a byte string below another is the number in base 2^n. -/
theorem toNat_append_eq_add {m n : Nat} (x : BitVec m) (y : BitVec n) : (x ++ y).toNat = x.toNat * 2 ^ n + y.toNat := by
  rw [BitVec.toNat_append, ← Nat.shiftLeft_add_eq_or_of_lt y.isLt, Nat.shiftLeft_eq]

theorem wordOfBytesLE_toNat (b0 b1 b2 b3 : Byte) :
    (wordOfBytesLE b0 b1 b2 b3).toNat = b0.toNat + 2 ^ 8 * b1.toNat + 2 ^ 16 * b2.toNat + 2 ^ 24 * b3.toNat := by
  simp only [wordOfBytesLE, toNat_append_eq_add]
  ring

theorem byteOfWordBE_toNat (x : Word) (m : Nat) : (byteOfWordBE x m).toNat = x.toNat / 2 ^ (24 - 8 * m) % 2 ^ 8 := by
  rw [byteOfWordBE, BitVec.extractLsb'_toNat, Nat.shiftRight_eq_div_pow]

/-- Settles O15: the index of a byte is its place in base 2^8. -/
theorem messageWordsLittleEndian : Obligations.MessageWordsLittleEndian := by
  intro blk n
  rw [Fin.getElem_fin, getElem_loadWords, wordOfBytesLE_toNat]

/-! ### The digest -/

/-- R141: a word's four bytes, the most significant first. -/
def bytesOfWordBE (x : Word) : List Byte := List.ofFn fun m : Fin 4 => byteOfWordBE x m.val

/-- R141: the digest is the bytes of A, then those of B, and so on to H. -/
theorem toList_storeWords (ctx : Words) : (storeWords ctx).toList = (ctx.toList.map bytesOfWordBE).flatten := by
  have hbytes : (storeWords ctx).toList = List.ofFn (n := 8 * 4) fun k => byteOfWordBE ctx[k.val / 4] (k.val % 4) :=
    Vector.toList_ofFn
  have hwords : ctx.toList = List.ofFn fun n : Fin 8 => ctx[n] := by
    refine List.ext_getElem (by simp) fun n hn hn' => ?_
    simp only [List.getElem_ofFn, Vector.getElem_toList]
    rfl
  rw [hbytes, List.ofFn_mul, hwords, List.map_ofFn]
  refine congrArg List.flatten (congrArg List.ofFn (funext fun n => ?_))
  rw [Function.comp_apply, bytesOfWordBE]
  refine congrArg List.ofFn (funext fun m => ?_)
  have hword : (n.val * 4 + m.val) / 4 = n.val := by omega
  have hbyte : (n.val * 4 + m.val) % 4 = m.val := by omega
  simp only [hword, hbyte, Fin.getElem_fin]

/-- A loop that takes a word's bytes into a number in base 2^8 takes the word into it in base 2^32. -/
theorem foldl_bytesOfWordBE (acc : Nat) (x : Word) :
    (bytesOfWordBE x).foldl (fun acc b => acc * 2 ^ 8 + b.toNat) acc = acc * 2 ^ 32 + x.toNat := by
  have hx := x.isLt
  have hbytes : bytesOfWordBE x = [byteOfWordBE x 0, byteOfWordBE x 1, byteOfWordBE x 2, byteOfWordBE x 3] := rfl
  simp only [hbytes, List.foldl_cons, List.foldl_nil, byteOfWordBE_toNat]
  omega

/-- R141: the digest as one number is the eight words as one number. -/
theorem foldl_storeWords (ctx : Words) :
    (storeWords ctx).toList.foldl (fun acc b => acc * 2 ^ 8 + b.toNat) 0 =
      ctx.toList.foldl (fun acc x => acc * 2 ^ 32 + x.toNat) 0 := by
  rw [toList_storeWords, List.foldl_flatten, List.foldl_map]
  simp only [foldl_bytesOfWordBE]

/-- Settles O28: the closed form is the definition's, and a block load and a store of the same four bytes are evaluated. -/
theorem digestAsOneNumber : Obligations.DigestAsOneNumber := by
  refine ⟨fun ctx k => getElem_storeWords ctx k k.isLt, foldl_storeWords, fun blk h0 h1 h2 h3 => ?_, fun ctx h => ?_⟩
  · rw [getElem_loadWords]
    simp only [Nat.mul_zero, Nat.zero_add, h0, h1, h2, h3]
    decide
  · have hbyte : ∀ (m : Nat) (hm : m < 4), (storeWords ctx)[4 * 0 + m] = byteOfWordBE ctx[0] m :=
      getElem_storeWords_word ctx 0
    simp only [h] at hbyte
    exact ⟨hbyte 0 (by decide), hbyte 1 (by decide), hbyte 2 (by decide), hbyte 3 (by decide)⟩

/-- Settles O32: each of the three commands writes one register. -/
theorem extractDisturbsNothing : Obligations.ExtractDisturbsNothing := by
  intro s
  refine ⟨_, _, _, _, exec_compress, (runCmds_cons _ exec_extract).trans (runCmds_cons _ exec_compress), exec_extract,
    exec_init, ?_⟩
  simp

/-! ### Hex characters (R144) -/

/-- No lowercase hex character has the code of an upper-case letter A to F. -/
theorem hexchar_not_upper : ∀ v : BitVec 4, ¬(0x41 ≤ (hexchar v).toNat ∧ (hexchar v).toNat ≤ 0x46) := by decide

/-- Settles O29: the sixteen digits are evaluated, and every byte HEXENC writes is one of them. -/
theorem hexCharacterCodes : Obligations.HexCharacterCodes := by
  refine ⟨by decide, by decide, by decide, fun s t k hexec => ?_⟩
  rw [exec_hexenc] at hexec
  cases hexec
  rw [State.setHex_hex, Fin.getElem_fin, getElem_hexOfDigest]
  split <;> exact hexchar_not_upper _

/-! ### The hex string (R143, R145, R146) -/

theorem hexOfDigest_high (dig : Digest) {k : Nat} (hk : k < 32) :
    (hexOfDigest dig)[2 * k] = hexchar (dig[k].extractLsb' 4 4) := by
  have hhalf : 2 * k / 2 = k := by omega
  simp [hhalf]

theorem hexOfDigest_low (dig : Digest) {k : Nat} (hk : k < 32) :
    (hexOfDigest dig)[2 * k + 1] = hexchar (dig[k].extractLsb' 0 4) := by
  have hhalf : (2 * k + 1) / 2 = k := by omega
  simp [hhalf]

/-- Settles O30: HEXENC writes `hexOfDigest` of `DIG`. -/
theorem hexencWritesLowercase : Obligations.HexencWritesLowercase := by
  refine ⟨fun s => ⟨s.setHex (hexOfDigest s.dig), exec_hexenc, rfl,
    fun k => ⟨hexOfDigest_high s.dig k.isLt, hexOfDigest_low s.dig k.isLt⟩⟩, fun s s' t t' hdig hexec hexec' => ?_⟩
  rw [exec_hexenc] at hexec hexec'
  cases hexec
  cases hexec'
  exact congrArg hexOfDigest hdig

/-- A part of a word's byte is a part of the word. -/
theorem extractLsb'_byteOfWordBE (x : Word) (m : Nat) {lo len : Nat} (h : lo + len ≤ 8) :
    (byteOfWordBE x m).extractLsb' lo len = x.extractLsb' (24 - 8 * m + lo) len := by
  ext i hi
  have hbyte : lo + i < 8 := by omega
  simp [byteOfWordBE, hbyte, Nat.add_assoc]

/-- Settles O31: character pair 4n + m comes from digest byte 4n + m, which is byte m of word n from the top. -/
theorem hexOfAccumulator : Obligations.HexOfAccumulator := by
  intro s
  refine ⟨_, (runCmds_cons _ exec_extract).trans (runCmds_cons _ exec_hexenc), fun n m => ?_⟩
  have hlo : 24 - 8 * m.val = 8 * (3 - m.val) := by omega
  have hpair : 8 * n.val + 2 * m.val = 2 * (4 * n.val + m.val) := by omega
  have hbyte := getElem_storeWords_word s.ctx n m m.isLt
  have hhigh := hexOfDigest_high (storeWords s.ctx) (k := 4 * n.val + m.val) (by omega)
  have hlow := hexOfDigest_low (storeWords s.ctx) (k := 4 * n.val + m.val) (by omega)
  rw [hbyte, extractLsb'_byteOfWordBE _ _ (by decide), hlo] at hhigh hlow
  simp only [hpair]
  exact ⟨hhigh, hlow⟩

end Sys2Proof.Machine
end

section
/-! PROOFS. The blocks of a message, byte by byte (R151 to R158, R189). -/

namespace Sys2Proof.Machine

/-! ### A closed form of `blocks` -/

/-- R151 to R153: byte j of a padded message, with the marker directly after the message and zeros from there on. -/
def messageByte (m : List Byte) (j : Nat) : Byte :=
  if h : j < m.length then m[j] else if j = m.length then 0x80#8 else 0x00#8

/-- Block b of a padded message. -/
def messageBlock (m : List Byte) (b : Nat) : Block := Vector.ofFn fun k => messageByte m (32 * b + k.val)

/-- R155: how many blocks a message of N bytes has. -/
def numBlocks (N : Nat) : Nat := if N = 0 then 1 else (N + 31) / 32

theorem getElem_messageBlock (m : List Byte) (b k : Nat) (hk : k < 32) :
    (messageBlock m b)[k] = messageByte m (32 * b + k) := Vector.getElem_ofFn hk

/-- Blocks agree when the bytes they cover do. -/
theorem messageBlock_congr {m m' : List Byte} {b b' : Nat}
    (h : ∀ k < 32, messageByte m (32 * b + k) = messageByte m' (32 * b' + k)) : messageBlock m b = messageBlock m' b' := by
  ext1 k hk
  rw [getElem_messageBlock, getElem_messageBlock, h k hk]

theorem messageByte_of_lt {m : List Byte} {j : Nat} (h : j < m.length) : messageByte m j = m[j] := dif_pos h

theorem messageByte_append_left {m m' : List Byte} {j : Nat} (h : j < m.length) :
    messageByte (m ++ m') j = messageByte m j := by
  have hlong : j < (m ++ m').length := by rw [List.length_append]; omega
  rw [messageByte_of_lt h, messageByte_of_lt hlong, List.getElem_append_left h]

theorem messageByte_append_right (m m' : List Byte) (j : Nat) :
    messageByte (m ++ m') (m.length + j) = messageByte m' j := by
  simp [messageByte]

theorem getElem_toBlock_chunk (m : List Byte) (b k : Nat) (hk : k < 32) :
    (toBlock (chunk m b))[k] = m.getD (32 * b + k) 0x00#8 := by
  simp [toBlock, chunk, List.getD_eq_getElem?_getD]

/-- A full chunk is its own block. -/
theorem toBlock_chunk_full {m : List Byte} {b : Nat} (hb : b < m.length / 32) : toBlock (chunk m b) = messageBlock m b := by
  ext1 k hk
  have hin : 32 * b + k < m.length := by omega
  rw [getElem_toBlock_chunk, getElem_messageBlock, messageByte_of_lt hin, List.getD_eq_getElem _ _ hin]

/-- The last chunk, when it is short or empty, is padded to the last block. -/
theorem padBlock_chunk_last (m : List Byte) :
    padBlock (toBlock (chunk m (m.length / 32))) (m.length % 32) = messageBlock m (m.length / 32) := by
  ext1 k hk
  rw [getElem_padBlock_short _ (Nat.mod_lt _ (by decide)) hk, getElem_toBlock_chunk, getElem_messageBlock, messageByte]
  have hend : 32 * (m.length / 32) + m.length % 32 = m.length := Nat.div_add_mod _ _
  rcases lt_trichotomy k (m.length % 32) with hlt | heq | hgt
  · have hin : 32 * (m.length / 32) + k < m.length := by omega
    rw [if_pos hlt, dif_pos hin, List.getD_eq_getElem _ _ hin]
  · rw [if_neg (by omega), if_pos heq, dif_neg (by omega), if_pos (by omega)]
  · rw [if_neg (by omega), if_neg (by omega), dif_neg (by omega), if_neg (by omega)]

theorem fullBlocks_eq (m : List Byte) : fullBlocks m = (List.range (m.length / 32)).map (messageBlock m) :=
  List.map_congr_left fun _ hb => toBlock_chunk_full (List.mem_range.mp hb)

/-- R156: the blocks of a message in one formula, the empty message and the exact multiples included. -/
theorem blocks_eq (m : List Byte) : blocks m = (List.range (numBlocks m.length)).map (messageBlock m) := by
  have hlast := padBlock_chunk_last m
  rw [blocks, numBlocks, fullBlocks_eq]
  by_cases hempty : m.length = 0
  · obtain rfl := List.length_eq_zero_iff.mp hempty
    simpa [chunk] using hlast
  · rw [if_neg hempty, if_neg hempty]
    rcases Nat.eq_zero_or_pos (m.length % 32) with hfull | hshort
    · have hcount : (m.length + 31) / 32 = m.length / 32 := by omega
      rw [if_neg (by omega), List.append_nil, hcount]
    · have hcount : (m.length + 31) / 32 = m.length / 32 + 1 := by omega
      rw [if_pos hshort, hlast, hcount, List.range_succ, List.map_append, List.map_singleton]

theorem length_blocks (m : List Byte) : (blocks m).length = numBlocks m.length := by
  rw [blocks_eq, List.length_map, List.length_range]

/-- Settles O53: by the closed form of `blocks`. -/
theorem blocksOfMessage : Obligations.BlocksOfMessage := by
  intro m b k h
  simp only [blocks_eq, List.getElem_map, List.getElem_range, Fin.getElem_fin, getElem_messageBlock]
  rfl

/-- Settles O54: the blocks are counted off at the end of m1, below which the bytes are those of m1 and above those of m2. -/
theorem blocksOfConcatenation : Obligations.BlocksOfConcatenation := by
  intro m1 m2 hpos hmult hne
  have hpos2 : 0 < m2.length := List.length_pos_iff.mpr hne
  obtain ⟨q, hq⟩ : ∃ q, m1.length = 32 * q := ⟨m1.length / 32, by omega⟩
  have hcount1 : numBlocks m1.length = q := by rw [numBlocks, if_neg (by omega)]; omega
  have hcount : numBlocks (m1 ++ m2).length = q + numBlocks m2.length := by
    rw [List.length_append, numBlocks, numBlocks, if_neg (by omega), if_neg (by omega)]
    omega
  have hbelow : ∀ b ∈ List.range q, messageBlock (m1 ++ m2) b = messageBlock m1 b := fun b hb => by
    have hb := List.mem_range.mp hb
    exact messageBlock_congr fun k hk => messageByte_append_left (by omega)
  have habove : ∀ b ∈ List.range (numBlocks m2.length),
      (messageBlock (m1 ++ m2) ∘ fun b => q + b) b = messageBlock m2 b := fun b _ =>
    messageBlock_congr fun k hk => by
      have hindex : 32 * (q + b) + k = m1.length + (32 * b + k) := by omega
      rw [hindex, messageByte_append_right]
  rw [blocks_eq, blocks_eq, blocks_eq, hcount, hcount1, List.range_add, List.map_append, List.map_map,
    List.map_congr_left hbelow, List.map_congr_left habove]

/-! ### Padding ambiguity (R189) -/

theorem length_spelledOut (m : List Byte) : (spelledOut m).length = 32 * (m.length / 32 + 1) := by
  simp only [spelledOut, List.length_append, List.length_cons, List.length_replicate]
  omega

/-- Up to the end of the last block, the spelled-out message has the bytes that padding gives the message. -/
theorem messageByte_spelledOut {m : List Byte} {j : Nat} (hj : j < 32 * (m.length / 32 + 1)) :
    messageByte (spelledOut m) j = messageByte m j := by
  rcases Nat.lt_or_ge j m.length with hlt | hge
  · exact messageByte_append_left hlt
  · obtain ⟨d, rfl⟩ := Nat.exists_eq_add_of_le hge
    rw [spelledOut, messageByte_append_right]
    cases d with
    | zero => simp [messageByte]
    | succ d =>
      have hin : d + 1 < (0x80#8 :: List.replicate (31 - m.length % 32) 0x00#8).length := by
        rw [List.length_cons, List.length_replicate]; omega
      rw [messageByte_of_lt hin]
      simp [messageByte]

theorem blocks_spelledOut {m : List Byte} (hm : m.length = 0 ∨ m.length % 32 ≠ 0) :
    blocks (spelledOut m) = blocks m := by
  have hcount : numBlocks m.length = m.length / 32 + 1 := by
    unfold numBlocks
    split <;> omega
  have hcount' : numBlocks (spelledOut m).length = m.length / 32 + 1 := by
    rw [length_spelledOut, numBlocks, if_neg (by omega)]
    omega
  rw [blocks_eq, blocks_eq, hcount, hcount']
  refine List.map_congr_left fun b hb => messageBlock_congr fun k hk => messageByte_spelledOut ?_
  have hb := List.mem_range.mp hb
  omega

/-- Settles O55: equal blocks have equal digests, and the lengths tell the two messages apart. -/
theorem paddingAmbiguity : Obligations.PaddingAmbiguity := by
  intro cfg m hm
  have hlength := length_spelledOut m
  refine ⟨blocks_spelledOut hm, by rw [lvha256, lvha256, blocks_spelledOut hm], fun heq => ?_, by omega, by omega⟩
  rw [heq] at hlength
  omega

end Sys2Proof.Machine
end

section
/-! PROOFS. The commands of a message (R150, R155 to R158). -/

namespace Sys2Proof.Machine

/-! ### How many COMPRESS commands there are -/

theorem count_compress_ldChunk (bytes : List Byte) : (ldChunk bytes).count .compress = 0 := by
  simp [ldChunk, List.count_eq_zero]

theorem count_compress_blockCmds (bytes : List Byte) : (blockCmds bytes).count .compress = 1 := by
  rw [blockCmds, List.count_append, count_compress_ldChunk]
  rfl

theorem count_compress_fullChunkCmds (padFull : Nat → Bool) (m : List Byte) (b : Nat) :
    (fullChunkCmds padFull m b).count .compress = 1 := by
  rw [fullChunkCmds, List.count_append, List.count_append, count_compress_ldChunk]
  cases padFull b <;> rfl

/-- R155: one COMPRESS for each block. -/
theorem count_compress_bodyCmds (padFull : Nat → Bool) (m : List Byte) :
    (bodyCmds padFull m).count .compress = numBlocks m.length := by
  have hfull : ((List.range (m.length / 32)).flatMap (fullChunkCmds padFull m)).count .compress = m.length / 32 := by
    simp [List.count_flatMap, Function.comp_def, count_compress_fullChunkCmds]
  rw [bodyCmds, numBlocks]
  by_cases hempty : m.length = 0
  · rw [if_pos hempty, if_pos hempty]
    rfl
  · rw [if_neg hempty, if_neg hempty, List.count_append, hfull]
    split
    · rw [count_compress_blockCmds]; omega
    · rw [List.count_nil]; omega

/-- Settles O52: INIT, EXTRACT and HEXENC are no COMPRESS. -/
theorem blockCount : Obligations.BlockCount := by
  intro padFull m
  have hcount : (hashCmds padFull m).count .compress = numBlocks m.length := by
    rw [hashCmds, List.count_cons, List.count_append, count_compress_bodyCmds]
    rfl
  rw [hcount]
  refine ⟨rfl, length_blocks m, fun k hk hlength => ?_⟩
  rw [numBlocks, if_neg (by omega)]
  omega

/-! ### What a list of commands does to the accumulator -/

/-- The commands complete in every state and fold the blocks into the accumulator. -/
def Absorbs (cmds : List Instr) (bs : List Block) : Prop :=
  ∀ s : State, ∃ t, runCmds cmds s = .next t ∧ t.cfg = s.cfg ∧ t.ctx = accumulate s.cfg s.ctx bs

theorem Absorbs.nil : Absorbs [] [] := fun s => ⟨s, rfl, rfl, rfl⟩

theorem Absorbs.append {cmds cmds' : List Instr} {bs bs' : List Block} (h : Absorbs cmds bs) (h' : Absorbs cmds' bs') :
    Absorbs (cmds ++ cmds') (bs ++ bs') := by
  intro s
  obtain ⟨t, hrun, hcfg, hctx⟩ := h s
  obtain ⟨t', hrun', hcfg', hctx'⟩ := h' t
  refine ⟨t', (runCmds_append cmds' hrun).trans hrun', hcfg'.trans hcfg, ?_⟩
  rw [hctx', hcfg, hctx, accumulate, accumulate, accumulate, List.foldl_append]

theorem Absorbs.flatMap {f : Nat → List Instr} {g : Nat → Block} {l : List Nat} (h : ∀ b ∈ l, Absorbs (f b) [g b]) :
    Absorbs (l.flatMap f) (l.map g) := by
  induction l with
  | nil => exact Absorbs.nil
  | cons b l ih =>
    obtain ⟨hb, hl⟩ := List.forall_mem_cons.mp h
    exact hb.append (ih hl)

/-- Commands that leave a block in `BLK` and nothing else, and then a COMPRESS, fold that block in. -/
theorem absorbs_load_compress {cmds : List Instr} {b : Block} (h : ∀ s, runCmds cmds s = .next (s.setBlk b)) :
    Absorbs (cmds ++ [.compress]) [b] :=
  fun s => ⟨_, (runCmds_append _ (h s)).trans (runCmds_cons _ exec_compress), rfl, rfl⟩

/-- LDCHUNK (R70) completes and leaves the chunk at the start of `BLK`; what stands after it, no rule reads. -/
theorem runCmds_ldChunk (bytes : List Byte) (hlen : bytes.length ≤ 32) (s : State) :
    ∃ b, runCmds (ldChunk bytes) s = .next (s.setBlk b) ∧
      ∀ (k : Nat) (hk : k < 32), k < bytes.length → b[k] = (toBlock bytes)[k] := by
  induction bytes using List.reverseRecOn with
  | nil => exact ⟨s.blk, rfl, fun k _ hk => absurd hk (Nat.not_lt_zero k)⟩
  | append_singleton bytes x ih =>
    rw [List.length_append, List.length_singleton] at hlen
    obtain ⟨b, hrun, hbytes⟩ := ih (by omega)
    have hidx : (BitVec.ofNat 5 bytes.length).toNat = bytes.length := by rw [BitVec.toNat_ofNat]; omega
    have hcmds : ldChunk (bytes ++ [x]) = ldChunk bytes ++ [.ldb (BitVec.ofNat 5 bytes.length) x] := by
      simp [ldChunk, List.zipIdx_append]
    refine ⟨b.set bytes.length x, ?_, fun k hk hin => ?_⟩
    · rw [hcmds, runCmds_append _ hrun, runCmds_cons _ (exec_ldb _ _), runCmds_nil]
      simp [State.writeBlk, hidx]
    · rw [Vector.getElem_set]
      split
      next hlast => simp [toBlock, ← hlast]
      next hbefore =>
        rw [List.length_append, List.length_singleton] at hin
        have hin' : k < bytes.length := by omega
        rw [hbytes k hk hin']
        simp [toBlock, List.getD_eq_getElem?_getD, List.getElem?_append_left hin']

/-- R87, R150: BLOCK folds in the padded chunk. -/
theorem absorbs_blockCmds {bytes : List Byte} (hlen : bytes.length ≤ 32) :
    Absorbs (blockCmds bytes) [padBlock (toBlock bytes) bytes.length] := by
  have hL : (BitVec.ofNat 6 bytes.length).toNat = bytes.length := by rw [BitVec.toNat_ofNat]; omega
  have hload : ∀ s, runCmds (ldChunk bytes ++ [.pad (BitVec.ofNat 6 bytes.length)]) s =
      .next (s.setBlk (padBlock (toBlock bytes) bytes.length)) := by
    intro s
    obtain ⟨b, hrun, hbytes⟩ := runCmds_ldChunk bytes hlen s
    rw [runCmds_append _ hrun, runCmds_cons _ (exec_pad_legal (hL.trans_le hlen)), hL, State.setBlk_blk,
      padBlock_eq_of_prefix_eq hbytes, State.setBlk_setBlk, runCmds_nil]
  have hcmds : blockCmds bytes = (ldChunk bytes ++ [.pad (BitVec.ofNat 6 bytes.length)]) ++ [.compress] := by
    rw [blockCmds, List.append_assoc, List.cons_append, List.nil_append]
  exact hcmds ▸ absorbs_load_compress hload

/-- R150, R154: the commands of a full chunk fold it in, with or without PAD 32. -/
theorem absorbs_fullChunkCmds (padFull : Nat → Bool) {m : List Byte} {b : Nat} (hb : b < m.length / 32) :
    Absorbs (fullChunkCmds padFull m b) [toBlock (chunk m b)] := by
  have hlen : (chunk m b).length = 32 := by
    simp only [chunk, List.length_take, List.length_drop]
    omega
  refine absorbs_load_compress fun s => ?_
  obtain ⟨blk, hrun, hbytes⟩ := runCmds_ldChunk (chunk m b) hlen.le s
  have hblk : blk = toBlock (chunk m b) := by
    ext1 k hk
    exact hbytes k hk (hk.trans_eq hlen.symm)
  rw [runCmds_append _ hrun, hblk]
  cases padFull b with
  | true => exact runCmds_cons _ (exec_pad_full _)
  | false => rfl

/-- R150, R156: the commands between INIT and EXTRACT fold in the blocks of the message. -/
theorem absorbs_bodyCmds (padFull : Nat → Bool) (m : List Byte) : Absorbs (bodyCmds padFull m) (blocks m) := by
  rw [bodyCmds, blocks]
  by_cases hempty : m.length = 0
  · rw [if_pos hempty, if_pos hempty]
    exact absorbs_blockCmds (bytes := []) (Nat.zero_le 32)
  · rw [if_neg hempty, if_neg hempty]
    refine (Absorbs.flatMap fun b hb => absorbs_fullChunkCmds padFull (List.mem_range.mp hb)).append ?_
    split
    · have hlen : (chunk m (m.length / 32)).length = m.length % 32 := by
        simp only [chunk, List.length_take, List.length_drop]
        omega
      have hlast := absorbs_blockCmds (bytes := chunk m (m.length / 32)) (by omega)
      rwa [hlen] at hlast
    · exact Absorbs.nil

/-- R150, R158: without its INIT, the sequence of a message writes `DIG` and `HEX` from the fold that starts at the
accumulator it finds. -/
theorem runCmds_body_finish (padFull : Nat → Bool) (m : List Byte) (s : State) :
    ∃ t, runCmds (bodyCmds padFull m ++ finishCmds) s = .next t ∧
      t.ctx = accumulate s.cfg s.ctx (blocks m) ∧ t.dig = storeWords t.ctx ∧ t.hex = hexOfDigest t.dig := by
  obtain ⟨u, hrun, -, hctx⟩ := absorbs_bodyCmds padFull m s
  have hfinish : runCmds finishCmds u = .next ((u.setDig (storeWords u.ctx)).setHex (hexOfDigest (storeWords u.ctx))) :=
    (runCmds_cons _ exec_extract).trans (runCmds_cons _ exec_hexenc)
  refine ⟨_, (runCmds_append _ hrun).trans hfinish, ?_⟩
  simp [hctx]

/-- Settles O51: the fold starts at the `CTX` of the state. -/
theorem chainingContinuesTheFold : Obligations.ChainingContinuesTheFold := by
  intro padFull m s
  obtain ⟨t, hrun, hctx, hdig, -⟩ := runCmds_body_finish padFull m s
  exact ⟨t, hrun, by rw [hdig, hctx]⟩

/-- Settles O50: INIT makes the wired constants the accumulator the fold starts at. -/
theorem hashGivesDigest : Obligations.HashGivesDigest := by
  intro padFull m s
  obtain ⟨t, hrun, hctx, hdig, hhex⟩ := runCmds_body_finish padFull m (s.setCtx s.cfg.iv)
  rw [State.setCtx_cfg, State.setCtx_ctx] at hctx
  rw [hctx] at hdig
  rw [hdig] at hhex
  exact ⟨t, (runCmds_cons _ exec_init).trans hrun, hdig, hhex, hctx⟩

end Sys2Proof.Machine
end
